-- ==== Sys2Proof/Word.lean ====
section
/-! DEFINITION. The two word types of the PK2140: the 16-bit word of the host bus and of the sheet, and the 12-bit
code of the converter (spec 01 §1.2, 11 §11.1). -/

namespace Sys2Proof

/-- A word of the host bus and a sample word of the sheet: 16 bits (R1, R164). -/
abbrev Word := BitVec 16

/-- A converter code, 0 to 4095 (R32). -/
abbrev Code := BitVec 12

end Sys2Proof
end

