-- ==== Sys2Proof/Syntax.lean ====
section
/-! DEFINITION. The commands of the PK2140, one constructor for each row of spec/opcode_table.json, in the table's
order. A command is a request, a bus access, or an event of one of the part's blocks or lines. -/

namespace Sys2Proof

/-- Samples of the two lines whose edges the part detects (R24, R72). -/
structure EdgeLines where
  scan : Bool
  trig : Bool
deriving DecidableEq, Repr

/-- One step of the part. Operands are what the outside world contributes to the step: a word on the data lines, the
argument of RLS, the sampled level of a line, the codes the converter read. -/
inductive Instr where
  /-- POWER_ON_RESET (R174). With `held` the RESET pin stays asserted after it; without, the reset ends with it. `gate`
  and `edges` are the first samples of the three lines (R24). -/
  | powerOnReset (held gate : Bool) (edges : EdgeLines)
  /-- INIT_SWEEP_END (R13). -/
  | initSweepEnd
  /-- SRST (R172). -/
  | srst
  /-- ARM (R50). -/
  | arm
  /-- STOP (R66). -/
  | stop
  /-- TRIG (R71). -/
  | trig
  /-- SUBMIT (R102). -/
  | submit
  /-- ABORT (R139). -/
  | abort
  /-- FLUSH (R115). -/
  | flush
  /-- POP (R114). -/
  | pop
  /-- RLS n (R93); the argument field of REQ has 12 bits. -/
  | rls (n : BitVec 12)
  /-- BAD_CODE_REQUEST (R170): a write of REQ whose code names no request. -/
  | badCodeRequest (code : BitVec 4)
  /-- TIMER_EXPIRY (R21). -/
  | timerExpiry
  /-- SCAN_EDGE (R23): the SCAN line is now sampled at `level`. -/
  | scanEdge (level : Bool)
  /-- GATE_CHANGE (R22): the GATE line is now sampled at `level`. -/
  | gateChange (level : Bool)
  /-- TRIG_EDGE (R72): the TRIG line is now sampled at `level`. -/
  | trigEdge (level : Bool)
  /-- SLOT_END (R36): `codes` are the conversions of the slot; a slot with AVERAGE n makes the first n. -/
  | slotEnd (codes : Vector Code 8)
  /-- ROW_COMMIT (R55). -/
  | rowCommit
  /-- TAKE (R120). -/
  | take
  /-- MOVE_COPY (R127). -/
  | moveCopy
  /-- MOVE_ADDS (R128). -/
  | moveAdds
  /-- MOVE_SUBS (R128). -/
  | moveSubs
  /-- MOVE_MIN (R128). -/
  | moveMin
  /-- MOVE_MAX (R128). -/
  | moveMax
  /-- MOVE_MEAN (R128). -/
  | moveMean
  /-- FILL (R131). -/
  | fill
  /-- SRCH_ABOVE (R133). -/
  | srchAbove
  /-- SRCH_BELOW (R133). -/
  | srchBelow
  /-- SRCH_RISE (R133). -/
  | srchRise
  /-- SRCH_FALL (R133). -/
  | srchFall
  /-- SRCH_FLAGGED (R133). -/
  | srchFlagged
  /-- SRCH_MARKED (R133). -/
  | srchMarked
  /-- SRCH_VOIDED (R133). -/
  | srchVoided
  /-- RDUC (R135). -/
  | rduc
  /-- XRD (R145). -/
  | xrd
  /-- XWR (R146). -/
  | xwr
  /-- XDATA_READ (R148). -/
  | xdataRead
  /-- XDATA_WRITE (R149). -/
  | xdataWrite (w : Word)
  /-- TRANSFER_TIMEOUT (R153). -/
  | transferTimeout
  /-- TPTR_WRITE (R166). -/
  | tptrWrite (w : Word)
  /-- TDATA_READ (R167). -/
  | tdataRead
  /-- TDATA_WRITE (R168). -/
  | tdataWrite (w : Word)
  /-- EVENTS_WRITE (R159). -/
  | eventsWrite (w : Word)
  /-- ENABLES_WRITE (R161). -/
  | enablesWrite (w : Word)
  /-- WINDOW_WRITE (R164): a write of the window word at `offset`, 0x00 to 0x1F. -/
  | windowWrite (offset : BitVec 5) (w : Word)
deriving DecidableEq, Repr

end Sys2Proof
end

