-- ==== Sys2Proof/Decode.lean ====
section
/-! DEFINITION. Which request a word of REQ names (spec 11 §11.3, §11.4), and which command a table word spells: a word
of 16 bits is read as a write of REQ, the one word of the part that names commands by a code (log 17). -/

namespace Sys2Proof

/-- The request that a word written to REQ names: its code is in bits 0–3, its argument in bits 4–15, which RLS alone
reads (R170, spec 11 §11.4). -/
def requestOf (w : Word) : Instr :=
  match (w.extractLsb' 0 4).toNat with
  | 1 => .srst
  | 2 => .arm
  | 3 => .stop
  | 4 => .trig
  | 5 => .submit
  | 6 => .abort
  | 7 => .flush
  | 8 => .pop
  | 9 => .rls (w.extractLsb' 4 12)
  | _ => .badCodeRequest (w.extractLsb' 0 4)

/-- The command that a word spells: a 16-bit word is a word of REQ (R170). No other command has an encoding, and the
rows of spec/opcode_table.json give no bits (log 17). -/
def decodeTableWord (nbits w : Nat) : Option Instr :=
  if nbits = 16 then some (requestOf (BitVec.ofNat 16 w)) else none

end Sys2Proof
end

