-- ==== Sys2Proof/Config.lean ====
section
/-! DEFINITION. What is fixed for the part: sizes the spec gives as constants, and the free values, which are opaque
constants without a body, so that nothing can be proved of what they are. -/

namespace Sys2Proof.Config

/-- Rows of the sheet (R1). -/
abbrev sheetRows : Nat := 2048

/-- Columns of the sheet (R1). -/
abbrev sheetCols : Nat := 16

/-- Sample words of the sheet (R1, R13). -/
abbrev sheetWords : Nat := 32768

/-- Tickets of CQ (R108). -/
abbrev ticketTotal : Nat := 8

/-- Words XF can hold (R144). -/
abbrev fifoDepth : Nat := 4

/-- Part-clock periods in one unit of the transfer timeout (R151). -/
abbrev timeoutUnit : Nat := 65536

/-- Converter clocks of one conversion (R36). -/
abbrev conversionClocks : Nat := 14

/-- FREE VALUE (log 8): the code the analog input presents at the n-th conversion that the part makes on its own.
R32 gives no more than its range, 0 to 4095. -/
opaque conversionCode : Nat → Code

/-- FREE VALUE (log 9): the word at an address of the sheet which the initialisation sweep has not reached.
R13: it "holds no defined value". -/
opaque unsweptWord : Nat → Word

end Sys2Proof.Config
end

