-- ==== Sys2Proof/Machine/State.lean ====
section
/-! DEFINITION. The state of the PK2140 as plain data, one record for each of the spec's blocks (spec 00, "Blocks"),
the state after a power-on reset, and the reasons a step can stop. -/

namespace Sys2Proof.Machine

/-- Why a step can stop with a fault. -/
inductive Fault where
  /-- Raised by a row commit or an engine access whose sheet row or column does not exist (row above 2047 or column
  above 15, R1). SAFE: the checks of R5, R7, R9 and R104 rule it out for every command the part accepts, so it stands
  only for states no run reaches (log 19). -/
  | outsideSheet
deriving DecidableEq, Repr

/-- Why a step can be refused. -/
inductive Refusal where
  /-- Raised by an arm of `exec` whose command has no meaning yet; no arm is left so. SAFE. -/
  | notModelled (mnemonic : String)
deriving DecidableEq, Repr

/-! ## Names of the layout table (spec 11 §11.4) -/

/-- SOURCE of a slot (R32). -/
inductive Source where
  | ain (n : Fin 12)
  | bandgap
  | zero
deriving DecidableEq, Repr

/-- REFERENCE of a slot (R33). -/
inductive Reference where
  | supply
  | internal
  | external
deriving DecidableEq, Repr

/-- The values 1, 2, 4 and 8 of AVERAGE (R36) and of the converter divider (R35). -/
inductive Power where
  | one
  | two
  | four
  | eight
deriving DecidableEq, Repr

/-- The timer prescaler (R17). -/
inductive Prescaler where
  | p1
  | p4
  | p16
  | p64
  | p256
  | p1024
deriving DecidableEq, Repr

/-- The timer mode (R17). -/
inductive TimerMode where
  | continuous
  | gated
  | external
deriving DecidableEq, Repr

/-- The limit sense (R74). -/
inductive Sense where
  | over
  | under
  | either
deriving DecidableEq, Repr

/-- The tables of the table port (R166). -/
inductive TableName where
  | scan
  | acq
  | record
  | count
deriving DecidableEq, Repr

/-- KIND of a block command (spec 07 §7.1). -/
inductive Kind where
  | move
  | fill
  | srch
  | rduc
  | xrd
  | xwr
deriving DecidableEq, Repr

/-- OP of a MOVE (R126). -/
inductive MoveOp where
  | copy
  | adds
  | subs
  | min
  | max
  | mean
deriving DecidableEq, Repr

/-- The condition of a SRCH (R133). -/
inductive Cond where
  | above
  | below
  | rise
  | fall
  | flagged
  | marked
  | voided
deriving DecidableEq, Repr

/-- STATUS of a result entry (R111). -/
inductive Status where
  | done
  | found
  | notFound
  | aborted
  | flushed
  | timeout
  | ringBusy
deriving DecidableEq, Repr

/-- The outcome of a request: NONE, ACCEPTED or the refusal reason (R171, spec 11 §11.4). -/
inductive Reason where
  | none
  | accepted
  | init
  | busy
  | notArmed
  | masked
  | noRecord
  | badList
  | badGeometry
  | badLimits
  | engineInRing
  | badKind
  | badRect
  | badRecord
  | badParam
  | full
  | empty
  | nothing
  | pinned
  | notSealed
  | isOpen
  | badCode
deriving DecidableEq, Repr

/-- A set of trigger sources: the mask and the cause set (R69, R76). -/
structure Sources where
  host : Bool
  line : Bool
  limit : Bool
  count : Bool
deriving DecidableEq, Repr

/-! ## SST -/

/-- The sample store (R1, R13, R16). `cells` lists the words that differ from the VOID word, by rising address;
`sweepPos` is the next word the sweep writes, 32768 once it has ended. -/
structure SampleStore where
  cells : List (Nat × Word)
  sweepPos : Nat
deriving DecidableEq, Repr

/-! ## STM -/

/-- The scan timer (spec 02 §2.1, R24). -/
structure ScanTimer where
  active : Nat
  counter : Nat
  prescale : Nat
  gate : Bool
  scan : Bool
deriving DecidableEq, Repr

/-! ## CNV -/

/-- One slot of the scan table (R30). -/
structure Slot where
  source : Source
  reference : Reference
  limits : Bool
  settle : BitVec 8
  average : Power
  low : Code
  high : Code
deriving DecidableEq, Repr

/-- A scan in CONVERTING (spec 03 §3.1). `buffer` holds the words of the slots that have ended, so the present slot is
its length; `clock` counts part-clock periods since the present slot began; `taken` conversions of it stand in the
running sum `sum`. -/
structure Converting where
  buffer : List Word
  clock : Nat
  taken : Nat
  sum : Nat
deriving DecidableEq, Repr

/-- The CNV state (R29). In PRESENTED the commit of `row` waits at the store port (R42). -/
inductive Scan where
  | free
  | converting (c : Converting)
  | presented (row : List Word)
deriving DecidableEq, Repr

/-- The converter (spec 03). -/
structure Converter where
  slots : Vector Slot 16
  scan : Scan
deriving DecidableEq, Repr

/-! ## ACQ -/

/-- The ACQ table (R48). -/
structure AcqTable where
  ringBase : Nat
  ringLength : Nat
  preCount : Nat
  postCount : Nat
  listLength : Nat
  mask : Sources
  trigSlot : Fin 16
  sense : Sense
  trigCount : Nat
  rearm : Bool
  early : Bool
  lineFall : Bool
  gateLow : Bool
  timerMode : TimerMode
  prescaler : Prescaler
  period : Word
  divider : Power
  timeout : BitVec 8
deriving DecidableEq, Repr

/-- The acquisition state with the number of the open record, which exists exactly in PRE, WAITTRIG and POST (R47). -/
inductive AcqState where
  | idle
  | pre (rec : Fin 8)
  | waittrig (rec : Fin 8)
  | post (rec : Fin 8)
  | starved
deriving DecidableEq, Repr

/-- The acquisition sequencer (R47, R48, R53, R65). -/
structure Sequencer where
  state : AcqState
  cfg : AcqTable
  writer : Nat
  committed : BitVec 32
  holding : Word
  dropped : Nat
deriving DecidableEq, Repr

/-! ## TRU -/

/-- The trigger unit (R70) and the last sample of the TRIG line (R24, R72). -/
structure TriggerUnit where
  host : Bool
  line : Bool
  flagged : Bool
  count : Nat
  sample : Bool
deriving DecidableEq, Repr

/-! ## RTB -/

/-- STATE of a descriptor (R82). -/
inductive RecState where
  | free
  | opened
  | sealed
deriving DecidableEq, Repr

/-- A record descriptor (R83); an absent field holds 0. -/
structure Descriptor where
  state : RecState
  start : Nat
  length : Nat
  pre : Nat
  post : Nat
  columns : Nat
  trigSeq : BitVec 32
  causes : Sources
  truncated : Bool
  gap : Bool
  early : Bool
  pins : Nat
deriving DecidableEq, Repr

/-- The record table: the descriptors and the sealing order, oldest first (R82, R90). -/
structure RecordTable where
  recs : Vector Descriptor 8
  order : List (Fin 8)
deriving DecidableEq, Repr

/-! ## CQ, RQ, BLE, XF -/

/-- The eight staging words 0x08 to 0x0F (R100, spec 11 §11.4), and the copy of them that is a command (R107). -/
structure Staged where
  ctl : Word
  tag : Word
  src : Word
  dst : Word
  recs : Word
  width : Word
  height : Word
  param : Word
deriving DecidableEq, Repr

/-- The command queue (R100, R108, R109). -/
structure CommandQueue where
  staging : Staged
  queue : List Staged
  tickets : Nat
deriving DecidableEq, Repr

/-- The running statistics of RDUC (R135); the codes and positions mean something once `vcount` is above 0. -/
structure Stats where
  vcount : Nat
  sum : Nat
  min : Nat
  max : Nat
  minRow : Nat
  minCol : Nat
  maxRow : Nat
  maxCol : Nat
deriving DecidableEq, Repr

/-- The kind-specific fields of a result entry (R112). -/
inductive Detail where
  | none
  | found (offset row : Nat) (value : Word)
  | reduced (st : Stats)
deriving DecidableEq, Repr

/-- A result entry (R112); KIND is kept as staged. -/
structure Entry where
  tag : BitVec 8
  kind : BitVec 4
  status : Status
  progress : Nat
  detail : Detail
deriving DecidableEq, Repr

/-- A place of the result queue (spec 07 §7.5). -/
inductive Place where
  | posted (e : Entry)
  | pending
deriving DecidableEq, Repr

/-- The running command (R119, R122, R138). `fetched` counts the source elements an XRD has read into XF, `prev` is the
previous value of a SRCH, `reads` holds the words that the element in progress of a MOVE has read (R126), `busy` says
that the port is serving an access of the command (R11, R12), and `aborting` that an accepted ABORT waits for the
element boundary (R140). -/
structure Running where
  cmd : Staged
  progress : Nat
  fetched : Nat
  prev : Option Nat
  stats : Stats
  reads : List Word
  busy : Bool
  aborting : Bool
deriving DecidableEq, Repr

/-- The block engine (R119). -/
inductive Engine where
  | idle
  | run (r : Running)
  | xwait (r : Running)
deriving DecidableEq, Repr

/-- The transfer FIFO (R144); `timeout` is the periods left of a running transfer timeout. -/
structure TransferFifo where
  words : List Word
  last : Word
  timeout : Option Nat
deriving DecidableEq, Repr

/-! ## EVU, HPI -/

/-- The sticky flags (R158). -/
structure Sticky where
  sealed : Bool
  acqdone : Bool
  starved : Bool
  trigger : Bool
  late : Bool
  blocked : Bool
  xunder : Bool
  xover : Bool
  access : Bool
  refused : Bool
  init : Bool
deriving DecidableEq, Repr

/-- The event unit (R158, R161). -/
structure EventUnit where
  sticky : Sticky
  enables : BitVec 14
deriving DecidableEq, Repr

/-- The host port: the table pointer (R166) and the outcome word (R171). -/
structure HostPort where
  table : TableName
  index : Nat
  autoInc : Bool
  code : BitVec 4
  reason : Reason
deriving DecidableEq, Repr

/-- The whole state. `held` says that a power-on reset lasts: the RESET pin is held asserted (R174). `busData`,
`conversions` and `pending` are the model's own: the word last read from TDATA or XDATA (log 11), the counter that
selects free conversion codes (log 12), and the commands that are waiting. -/
structure State where
  sst : SampleStore
  stm : ScanTimer
  cnv : Converter
  acq : Sequencer
  tru : TriggerUnit
  rtb : RecordTable
  cq : CommandQueue
  rq : List Place
  ble : Engine
  xf : TransferFifo
  evu : EventUnit
  hpi : HostPort
  held : Bool
  busData : Word
  conversions : Nat
  pending : List Instr
deriving DecidableEq, Repr

/-! ## Values after a power-on reset -/

/-- The VOID word, 0x8000: VOID set, every other field 0 (spec 11 §11.4). -/
def voidWord : Word := 0x8000#16

/-- No source. -/
def Sources.none : Sources := ⟨false, false, false, false⟩

/-- A slot after power-on reset (R31). -/
def Slot.reset : Slot := ⟨.ain 0, .supply, false, 0#8, .one, 0#12, 0xFFF#12⟩

/-- The ACQ table after power-on reset (R48). -/
def AcqTable.reset : AcqTable where
  ringBase := 0
  ringLength := 1024
  preCount := 0
  postCount := 0
  listLength := 1
  mask := ⟨true, false, false, false⟩
  trigSlot := 0
  sense := .over
  trigCount := 1
  rearm := false
  early := false
  lineFall := false
  gateLow := false
  timerMode := .continuous
  prescaler := .p1
  period := 0#16
  divider := .one
  timeout := 0#8

/-- A FREE descriptor: every field 0 (R83). -/
def Descriptor.free : Descriptor := ⟨.free, 0, 0, 0, 0, 0, 0#32, Sources.none, false, false, false, 0⟩

/-- Staging words after power-on reset: all 0 (R100). -/
def Staged.zero : Staged := ⟨0#16, 0#16, 0#16, 0#16, 0#16, 0#16, 0#16, 0#16⟩

/-- Statistics of no word. -/
def Stats.none : Stats := ⟨0, 0, 0, 0, 0, 0, 0, 0⟩

/-- No sticky flag set. -/
def Sticky.clear : Sticky := ⟨false, false, false, false, false, false, false, false, false, false, false⟩

/-- XF after either reset (R156). -/
def TransferFifo.reset : TransferFifo := ⟨[], voidWord, Option.none⟩

/-- The part right after a power-on reset that has ended, with the given first samples of GATE, SCAN and TRIG (R16, R28, R31, R48,
R68, R81, R99, R118, R143, R156, R163, R171, R174). Counter and prescaler count are named by log 2. -/
def State.powerOn (gate scan trig : Bool) : State where
  sst := ⟨[], 0⟩
  stm := ⟨65536, 65536, 0, gate, scan⟩
  cnv := ⟨Vector.replicate 16 Slot.reset, .free⟩
  acq := ⟨.idle, AcqTable.reset, 0, 0#32, 0#16, 0⟩
  tru := ⟨false, false, false, 0, trig⟩
  rtb := ⟨Vector.replicate 8 Descriptor.free, []⟩
  cq := ⟨Staged.zero, [], 8⟩
  rq := []
  ble := .idle
  xf := TransferFifo.reset
  evu := ⟨Sticky.clear, 0#14⟩
  hpi := ⟨.scan, 0, false, 0#4, .none⟩
  held := false
  busData := 0#16
  conversions := 0
  pending := []

/-- The machine right after reset: power-on values, the three lines low (log 1), no command waiting. -/
def State.reset : State := State.powerOn false false false

end Sys2Proof.Machine
end

