-- ==== Sys2Proof/Machine/Layout.lean ====
section
/-! DEFINITION. The layout table (spec 11 §11.4): the bit positions and codes of every host-visible format, and
nothing else. Bits that name no field are ignored on a write and read as 0 (R168; log 21 for the words R168 does not
speak of). -/

namespace Sys2Proof.Machine

/-- The number held by `len` bits of `w` from bit `lo` up. -/
def field (w : Word) (lo len : Nat) : Nat := (w.extractLsb' lo len).toNat

/-- The number whose bit k is the k-th flag of the list. -/
def bitsToNat : List Bool → Nat
  | [] => 0
  | b :: bs => b.toNat + 2 * bitsToNat bs

/-! ## Sample word -/

/-- CODE of a sample word. -/
def codeOf (w : Word) : Nat := field w 0 12

/-- UNDER of a sample word. -/
def isUnder (w : Word) : Bool := w.getLsbD 12

/-- OVER of a sample word. -/
def isOver (w : Word) : Bool := w.getLsbD 13

/-- MARK of a sample word. -/
def isMark (w : Word) : Bool := w.getLsbD 14

/-- VOID of a sample word: it holds no sample (R2). -/
def isVoid (w : Word) : Bool := w.getLsbD 15

/-- The valid sample word with these fields; the code is at most 4095. -/
def validWord (code : Nat) (undr ovr mark : Bool) : Word :=
  BitVec.ofNat 16 (code % 4096 + 4096 * bitsToNat [undr, ovr, mark])

/-- A word with MARK set and every other field kept (R3, R78). -/
def setMark (w : Word) : Word := w ||| 0x4000#16

/-! ## REQ and STATUS -/

/-- The code of an outcome or refusal reason. -/
def Reason.code : Reason → Nat
  | .none => 0
  | .accepted => 1
  | .init => 2
  | .busy => 3
  | .notArmed => 4
  | .masked => 5
  | .noRecord => 6
  | .badList => 7
  | .badGeometry => 8
  | .badLimits => 9
  | .engineInRing => 10
  | .badKind => 11
  | .badRect => 12
  | .badRecord => 13
  | .badParam => 14
  | .full => 15
  | .empty => 16
  | .nothing => 17
  | .pinned => 18
  | .notSealed => 19
  | .isOpen => 20
  | .badCode => 21

/-- The code of the ACQ state in STATUS. -/
def AcqState.code : AcqState → Nat
  | .idle => 0
  | .pre _ => 1
  | .waittrig _ => 2
  | .post _ => 3
  | .starved => 4

/-- The code of the engine state in STATUS while no sweep runs. -/
def Engine.code : Engine → Nat
  | .idle => 0
  | .run _ => 1
  | .xwait _ => 2

/-! ## TPTR -/

/-- The code of a table. -/
def TableName.code : TableName → Nat
  | .scan => 0
  | .acq => 1
  | .record => 2
  | .count => 3

/-- The table a two-bit code names. -/
def tableOf (n : Nat) : TableName :=
  match n with
  | 0 => .scan
  | 1 => .acq
  | 2 => .record
  | _ => .count

/-- The words of a table (R166). -/
def TableName.size : TableName → Nat
  | .scan => 64
  | .acq => 16
  | .record => 64
  | .count => 8

/-! ## Staging words -/

/-- KIND as the four bits staged. -/
def Staged.kindBits (c : Staged) : BitVec 4 := c.ctl.extractLsb' 0 4

/-- The kind that KIND names, if any (R103). -/
def Staged.kind (c : Staged) : Option Kind :=
  match field c.ctl 0 4 with
  | 1 => some .move
  | 2 => some .fill
  | 3 => some .srch
  | 4 => some .rduc
  | 5 => some .xrd
  | 6 => some .xwr
  | _ => none

/-- The operation that OP names, if any (R103). -/
def Staged.op (c : Staged) : Option MoveOp :=
  match field c.ctl 4 4 with
  | 1 => some .copy
  | 2 => some .adds
  | 3 => some .subs
  | 4 => some .min
  | 5 => some .max
  | 6 => some .mean
  | _ => none

/-- ROW_DESC. -/
def Staged.rowDesc (c : Staged) : Bool := c.ctl.getLsbD 8

/-- COL_DESC. -/
def Staged.colDesc (c : Staged) : Bool := c.ctl.getLsbD 9

/-- SKIP_VOID. -/
def Staged.skipVoid (c : Staged) : Bool := c.ctl.getLsbD 10

/-- TAG. -/
def Staged.tagBits (c : Staged) : BitVec 8 := c.tag.extractLsb' 0 8

/-- WIDTH as staged, 0 to 31. -/
def Staged.w (c : Staged) : Nat := field c.width 0 5

/-- HEIGHT as staged, 0 to 4095. -/
def Staged.h (c : Staged) : Nat := field c.height 0 12

/-- The threshold of a SRCH, 0 to 8191. -/
def Staged.threshold (c : Staged) : Nat := field c.param 0 13

/-- The condition that PARAM names for a SRCH, if any. -/
def Staged.cond (c : Staged) : Option Cond :=
  match field c.param 13 3 with
  | 1 => some .above
  | 2 => some .below
  | 3 => some .rise
  | 4 => some .fall
  | 5 => some .flagged
  | 6 => some .marked
  | 7 => some .voided
  | _ => none

/-! ## Result window -/

/-- The code of a STATUS. -/
def Status.code : Status → Nat
  | .done => 1
  | .found => 2
  | .notFound => 3
  | .aborted => 4
  | .flushed => 5
  | .timeout => 6
  | .ringBusy => 7

/-- A position word: row in bits 0–10, column in bits 11–14. -/
def positionWord (row col : Nat) : Word := BitVec.ofNat 16 (row % 2048 + 2048 * (col % 16))

/-- Word `i` (window word 0x10 + i) of a result entry. -/
def Entry.word (e : Entry) (i : Nat) : Word :=
  match i, e.detail with
  | 0, _ => BitVec.ofNat 16 (e.tag.toNat + 256 * e.kind.toNat + 4096 * e.status.code)
  | 1, _ => BitVec.ofNat 16 e.progress
  | 2, .found offset _ _ => BitVec.ofNat 16 offset
  | 3, .found _ row _ => BitVec.ofNat 16 row
  | 4, .found _ _ value => value
  | 2, .reduced st => if st.vcount = 0 then 0#16 else BitVec.ofNat 16 st.min
  | 3, .reduced st => if st.vcount = 0 then 0#16 else BitVec.ofNat 16 st.max
  | 4, .reduced st => if st.vcount = 0 then 0#16 else positionWord st.minRow st.minCol
  | 5, .reduced st => if st.vcount = 0 then 0#16 else positionWord st.maxRow st.maxCol
  | 6, .reduced st => BitVec.ofNat 16 st.sum
  | 7, .reduced st => BitVec.ofNat 16 (st.sum / 65536)
  | 8, .reduced st => BitVec.ofNat 16 st.vcount
  | _, _ => 0#16

/-! ## SCAN table -/

/-- The code of a source. -/
def Source.code : Source → Nat
  | .ain n => n.val
  | .bandgap => 12
  | .zero => 13

/-- The source a code names, if any. -/
def sourceOf (n : Nat) : Option Source :=
  if h : n < 12 then some (.ain ⟨n, h⟩)
  else if n = 12 then some .bandgap
  else if n = 13 then some .zero
  else none

/-- The code of a reference. -/
def Reference.code : Reference → Nat
  | .supply => 0
  | .internal => 1
  | .external => 2

/-- The reference a code names, if any. -/
def referenceOf (n : Nat) : Option Reference :=
  match n with
  | 0 => some .supply
  | 1 => some .internal
  | 2 => some .external
  | _ => none

/-- The number a power stands for. -/
def Power.num : Power → Nat
  | .one => 1
  | .two => 2
  | .four => 4
  | .eight => 8

/-- The power that stands for a number, if any. -/
def powerOf (n : Nat) : Option Power :=
  match n with
  | 1 => some .one
  | 2 => some .two
  | 4 => some .four
  | 8 => some .eight
  | _ => none

/-- Word `i`, 0 to 3, of a slot as it reads. -/
def Slot.word (s : Slot) (i : Nat) : Word :=
  match i with
  | 0 => BitVec.ofNat 16 (s.source.code + 16 * s.reference.code + 64 * s.limits.toNat)
  | 1 => BitVec.ofNat 16 (s.settle.toNat + 256 * s.average.num)
  | 2 => BitVec.ofNat 16 s.low.toNat
  | _ => BitVec.ofNat 16 s.high.toNat

/-- The slot after word `i` is replaced by `v`, if `v` names defined codes (R30). -/
def Slot.withWord (s : Slot) (i : Nat) (v : Word) : Option Slot :=
  match i with
  | 0 =>
    match sourceOf (field v 0 4), referenceOf (field v 4 2) with
    | some src, some ref => some { s with source := src, reference := ref, limits := v.getLsbD 6 }
    | _, _ => none
  | 1 => (powerOf (field v 8 4)).map fun a => { s with settle := v.extractLsb' 0 8, average := a }
  | 2 => if v.toNat ≤ 4095 then some { s with low := v.extractLsb' 0 12 } else none
  | _ => if v.toNat ≤ 4095 then some { s with high := v.extractLsb' 0 12 } else none

/-! ## ACQ table -/

/-- The divisor of a prescaler. -/
def Prescaler.num : Prescaler → Nat
  | .p1 => 1
  | .p4 => 4
  | .p16 => 16
  | .p64 => 64
  | .p256 => 256
  | .p1024 => 1024

/-- The prescaler of a divisor, if any. -/
def prescalerOf (n : Nat) : Option Prescaler :=
  match n with
  | 1 => some .p1
  | 4 => some .p4
  | 16 => some .p16
  | 64 => some .p64
  | 256 => some .p256
  | 1024 => some .p1024
  | _ => none

/-- The code of a timer mode. -/
def TimerMode.code : TimerMode → Nat
  | .continuous => 0
  | .gated => 1
  | .external => 2

/-- The timer mode a code names, if any. -/
def timerModeOf (n : Nat) : Option TimerMode :=
  match n with
  | 0 => some .continuous
  | 1 => some .gated
  | 2 => some .external
  | _ => none

/-- The code of a limit sense. -/
def Sense.code : Sense → Nat
  | .over => 1
  | .under => 2
  | .either => 3

/-- The limit sense a code names, if any. -/
def senseOf (n : Nat) : Option Sense :=
  match n with
  | 1 => some .over
  | 2 => some .under
  | 3 => some .either
  | _ => none

/-- A set of sources as bits 0 to 3. -/
def Sources.code (m : Sources) : Nat := bitsToNat [m.host, m.line, m.limit, m.count]

/-- Word `i` of the ACQ table as it reads (R48). -/
def AcqTable.word (t : AcqTable) (i : Nat) : Word :=
  match i with
  | 0 => BitVec.ofNat 16 t.ringBase
  | 1 => BitVec.ofNat 16 t.ringLength
  | 2 => BitVec.ofNat 16 t.preCount
  | 3 => BitVec.ofNat 16 t.postCount
  | 4 => BitVec.ofNat 16 t.listLength
  | 5 => BitVec.ofNat 16 t.mask.code
  | 6 => BitVec.ofNat 16 (t.trigSlot.val + 16 * t.sense.code)
  | 7 => BitVec.ofNat 16 t.trigCount
  | 8 => BitVec.ofNat 16 (bitsToNat [t.rearm, t.early, t.lineFall, t.gateLow])
  | 9 => BitVec.ofNat 16 t.timerMode.code
  | 10 => BitVec.ofNat 16 t.prescaler.num
  | 11 => t.period
  | 12 => BitVec.ofNat 16 t.divider.num
  | 13 => BitVec.ofNat 16 t.timeout.toNat
  | _ => 0#16

/-- The ACQ table after word `i` is replaced by `v`, if `v` lies in the word's range and names defined codes (R48,
R49). The range of words 0 and 1 includes base + length ≤ 2048 (R7). -/
def AcqTable.withWord (t : AcqTable) (i : Nat) (v : Word) : Option AcqTable :=
  match i with
  | 0 => if v.toNat ≤ 2047 ∧ v.toNat + t.ringLength ≤ 2048 then some { t with ringBase := v.toNat } else none
  | 1 =>
    if 16 ≤ v.toNat ∧ v.toNat ≤ 2048 ∧ t.ringBase + v.toNat ≤ 2048 then some { t with ringLength := v.toNat } else none
  | 2 => if v.toNat ≤ 2047 then some { t with preCount := v.toNat } else none
  | 3 => if v.toNat ≤ 2047 then some { t with postCount := v.toNat } else none
  | 4 => if v.toNat ≤ 16 then some { t with listLength := v.toNat } else none
  | 5 => some { t with mask := ⟨v.getLsbD 0, v.getLsbD 1, v.getLsbD 2, v.getLsbD 3⟩ }
  | 6 =>
    (senseOf (field v 4 2)).map fun sense => { t with trigSlot := (v.extractLsb' 0 4).toFin, sense := sense }
  | 7 => if v.toNat = 0 then none else some { t with trigCount := v.toNat }
  | 8 =>
    some { t with rearm := v.getLsbD 0, early := v.getLsbD 1, lineFall := v.getLsbD 2, gateLow := v.getLsbD 3 }
  | 9 => (timerModeOf (field v 0 2)).map fun m => { t with timerMode := m }
  | 10 => (prescalerOf v.toNat).map fun p => { t with prescaler := p }
  | 11 => some { t with period := v }
  | 12 => (powerOf v.toNat).map fun d => { t with divider := d }
  | 13 => some { t with timeout := v.extractLsb' 0 8 }
  | _ => none

/-! ## RECORD table -/

/-- The code of a descriptor state. -/
def RecState.code : RecState → Nat
  | .free => 0
  | .opened => 1
  | .sealed => 2

/-- Word `i`, 0 to 7, of a descriptor as it reads (R84). -/
def Descriptor.word (d : Descriptor) (i : Nat) : Word :=
  match i with
  | 0 => BitVec.ofNat 16 (d.state.code + 16 * bitsToNat [d.truncated, d.gap, d.early] + 256 * d.pins)
  | 1 => BitVec.ofNat 16 d.start
  | 2 => BitVec.ofNat 16 d.length
  | 3 => BitVec.ofNat 16 d.pre
  | 4 => BitVec.ofNat 16 d.post
  | 5 => BitVec.ofNat 16 (d.columns + 256 * d.causes.code)
  | 6 => d.trigSeq.extractLsb' 0 16
  | _ => d.trigSeq.extractLsb' 16 16

/-- A record number or NONE, 15. -/
def recordNumber : Option (Fin 8) → Word
  | some n => BitVec.ofNat 16 n.val
  | none => 15#16

end Sys2Proof.Machine
end

