-- ==== Sys2Proof/Machine/Flags.lean ====
section
/-! DEFINITION. Flag computations: the limit flags of a converted word, the LIMIT judgement of the trigger unit, the
level flags, the EVENTS word, clearing, and the interrupt line (spec 03 §3.5, 05 R74, 09 R147, 10). -/

namespace Sys2Proof.Machine

/-- The word a slot's code gives, with its limits evaluated (R39, R41). -/
def limitWord (slot : Slot) (code : Nat) : Word :=
  validWord code (slot.limits && decide (code < slot.low.toNat)) (slot.limits && decide (slot.high.toNat < code)) false

/-- A word is flagged under a limit sense; a void word is not (R74, R2). -/
def Sense.judges (sense : Sense) (w : Word) : Bool :=
  !isVoid w &&
    match sense with
    | .over => isOver w
    | .under => isUnder w
    | .either => isOver w || isUnder w

/-- A slot with LIMITS ON and LOW above HIGH (R40). -/
def Slot.crossed (s : Slot) : Bool := s.limits && decide (s.high.toNat < s.low.toNat)

/-- The capacity of XF during an XWR (R146). -/
def Running.capacity (r : Running) (total : Nat) : Nat := Nat.min Config.fifoDepth (total - r.progress)

/-- The head place is a posted entry: the result queue is ready (R110). -/
def headEntry : List Place → Option Entry
  | .posted e :: _ => some e
  | _ => none

/-- The number of posted entries (R110). -/
def postedCount (rq : List Place) : Nat := rq.countP fun p => p matches .posted _

/-- Clearing sticky flags by a write of EVENTS (R159). -/
def Sticky.clearBy (f : Sticky) (w : Word) : Sticky where
  sealed := f.sealed && !w.getLsbD 3
  acqdone := f.acqdone && !w.getLsbD 4
  starved := f.starved && !w.getLsbD 5
  trigger := f.trigger && !w.getLsbD 6
  late := f.late && !w.getLsbD 7
  blocked := f.blocked && !w.getLsbD 8
  xunder := f.xunder && !w.getLsbD 9
  xover := f.xover && !w.getLsbD 10
  access := f.access && !w.getLsbD 11
  refused := f.refused && !w.getLsbD 12
  init := f.init && !w.getLsbD 13

end Sys2Proof.Machine
end

