-- ==== Sys2Proof/Machine/Operands.lean ====
section
/-! DEFINITION. The operand forms of a block command: coordinates, rectangles, element order and the mapping to
addresses of the sheet (spec 01 §1.3 to §1.6, spec 07 §7.1). -/

namespace Sys2Proof.Machine

/-- A coordinate (R101): `line` is the sheet row of the absolute form and the record offset of the record-relative
form, which also names `record`. -/
structure Coord where
  relative : Bool
  line : Nat
  col : Nat
  record : Fin 8
deriving DecidableEq, Repr

/-- The coordinate a SRC or DST word and a record field hold. -/
def coordOf (w : Word) (record : Fin 8) : Coord := ⟨w.getLsbD 15, field w 0 11, field w 11 4, record⟩

/-- SRC. -/
def Staged.source (c : Staged) : Coord := coordOf c.src (c.recs.extractLsb' 0 3).toFin

/-- DST. -/
def Staged.dest (c : Staged) : Coord := coordOf c.dst (c.recs.extractLsb' 4 3).toFin

/-- The origins of the rectangles a command's kind uses (R91, R104). -/
def Staged.rects (c : Staged) : List Coord :=
  match c.kind with
  | some .move => [c.source, c.dest]
  | some .fill => [c.dest]
  | some .srch => [c.source]
  | some .rduc => [c.source]
  | some .xrd => [c.source]
  | some .xwr => [c.dest]
  | none => []

/-- The records a command references (R91). -/
def Staged.refs (c : Staged) : List (Fin 8) := (c.rects.filter (·.relative)).map (·.record)

/-- WIDTH × HEIGHT. -/
def Staged.total (c : Staged) : Nat := c.w * c.h

/-- Rectangle row of the k-th element in element order (R6). -/
def Staged.rowOf (c : Staged) (k : Nat) : Nat := if c.rowDesc then c.h - 1 - k / c.w else k / c.w

/-- Rectangle column of the k-th element in element order (R6). -/
def Staged.colOf (c : Staged) (k : Nat) : Nat := if c.colDesc then c.w - 1 - k % c.w else k % c.w

/-- The sheet row of offset `o` of a record (R9). -/
def mapOffset (t : AcqTable) (d : Descriptor) (o : Nat) : Nat :=
  t.ringBase + (d.start - t.ringBase + o) % t.ringLength

/-- The address of a sheet word, if its row and column exist (R1). -/
def sheetAddr (row col : Nat) : Option Nat :=
  if row < Config.sheetRows ∧ col < Config.sheetCols then some (Config.sheetCols * row + col) else none

/-- The address of position (i, j) of the rectangle with this origin, mapped as the element is accessed (R5, R9). -/
def Coord.addr (q : Coord) (t : AcqTable) (rtb : RecordTable) (i j : Nat) : Option Nat :=
  sheetAddr (if q.relative then mapOffset t rtb.recs[q.record] (q.line + i) else q.line + i) (q.col + j)

/-- The address of the k-th element, in element order, of a command's rectangle with this origin. -/
def Staged.elementAddr (c : Staged) (q : Coord) (t : AcqTable) (rtb : RecordTable) (k : Nat) : Option Nat :=
  q.addr t rtb (c.rowOf k) (c.colOf k)

/-- An absolute rectangle of this height has a row inside the ring (R10). -/
def Coord.overlapsRing (q : Coord) (t : AcqTable) (height : Nat) : Bool :=
  !q.relative && decide (0 < height ∧ q.line < t.ringBase + t.ringLength ∧ t.ringBase < q.line + height)

/-- A command overlaps the ring when a rectangle its kind uses does (R10). -/
def Staged.overlapsRing (c : Staged) (t : AcqTable) : Bool := c.rects.any (·.overlapsRing t c.h)

/-- One rectangle of a command lies within its bounds (R104). -/
def Coord.fits (q : Coord) (rtb : RecordTable) (width height : Nat) : Bool :=
  decide (q.col + width ≤ Config.sheetCols) &&
    (if q.relative then
      !(rtb.recs[q.record].state == .sealed) || decide (q.line + height ≤ rtb.recs[q.record].length)
     else decide (q.line + height ≤ Config.sheetRows))

/-- The BAD_RECT check (R104). -/
def Staged.rectOk (c : Staged) (rtb : RecordTable) : Bool :=
  decide (1 ≤ c.w ∧ c.w ≤ 16 ∧ 1 ≤ c.h ∧ c.h ≤ 2048) && (!(c.kind == some .srch) || c.w == 1) &&
    c.rects.all (·.fits rtb c.w c.h)

/-- The BAD_KIND check (R103). -/
def Staged.kindOk (c : Staged) : Bool :=
  match c.kind with
  | some .move => c.op.isSome
  | some .srch => c.cond.isSome
  | some _ => true
  | none => false

/-- The BAD_RECORD check (R105). -/
def Staged.recordsOk (c : Staged) (rtb : RecordTable) : Bool := c.refs.all fun n => rtb.recs[n].state == .sealed

/-- The BAD_PARAM check (R106). -/
def Staged.paramOk (c : Staged) : Bool :=
  match c.kind, c.cond with
  | some .srch, some .above => decide (c.threshold ≤ 4095)
  | some .srch, some .below => decide (c.threshold ≤ 4095)
  | some .srch, some .rise => decide (c.threshold ≤ 4095)
  | some .srch, some .fall => decide (c.threshold ≤ 4095)
  | _, _ => true

/-- The word a MOVE writes from the source word `a` and the destination word `b`, the element not being skipped
(R127, R128, R129). -/
def combine (op : MoveOp) (a b : Word) : Word :=
  match op with
  | .copy => a
  | .adds => merge (Nat.min (codeOf a + codeOf b) 4095)
  | .subs => merge (codeOf b - codeOf a)
  | .min => merge (Nat.min (codeOf a) (codeOf b))
  | .max => merge (Nat.max (codeOf a) (codeOf b))
  | .mean => merge ((codeOf a + codeOf b) / 2)
where
  /-- R129's table for a combining OP, with `code` the combined code of two valid words. -/
  merge (code : Nat) : Word :=
    if isVoid a then voidWord
    else if isVoid b then a
    else validWord code (isUnder a || isUnder b) (isOver a || isOver b) (isMark a || isMark b)

/-- An element matches the condition with threshold `t` and previous value `prev` (R133). -/
def Cond.holds (cond : Cond) (t : Nat) (prev : Option Nat) (w : Word) : Bool :=
  match cond with
  | .above => !isVoid w && decide (t < codeOf w)
  | .below => !isVoid w && decide (codeOf w < t)
  | .rise => !isVoid w && prev.any fun p => decide (p ≤ t ∧ t < codeOf w)
  | .fall => !isVoid w && prev.any fun p => decide (t ≤ p ∧ codeOf w < t)
  | .flagged => !isVoid w && (isOver w || isUnder w)
  | .marked => !isVoid w && isMark w
  | .voided => isVoid w

/-- The previous value after an element is examined (R132). -/
def nextPrev (prev : Option Nat) (w : Word) : Option Nat := if isVoid w then prev else some (codeOf w)

/-- The statistics after a word at this position is taken (R135). -/
def Stats.take (st : Stats) (w : Word) (row col : Nat) : Stats :=
  if isVoid w then st
  else
    { vcount := st.vcount + 1
      sum := st.sum + codeOf w
      min := if st.vcount = 0 ∨ codeOf w < st.min then codeOf w else st.min
      max := if st.vcount = 0 ∨ st.max < codeOf w then codeOf w else st.max
      minRow := if st.vcount = 0 ∨ codeOf w < st.min then row else st.minRow
      minCol := if st.vcount = 0 ∨ codeOf w < st.min then col else st.minCol
      maxRow := if st.vcount = 0 ∨ st.max < codeOf w then row else st.maxRow
      maxCol := if st.vcount = 0 ∨ st.max < codeOf w then col else st.maxCol }

end Sys2Proof.Machine
end

