-- ==== Sys2Proof/Machine/Ops.lean ====
section
/-! DEFINITION. The shared operations over the state: the sheet, the timer, scan events, the record table, sealing and
what follows it, posting results, requests, and what the host reads. Every meaning is written over these. -/

namespace Sys2Proof.Machine

/-- What a meaning answers. -/
abbrev Out := Host.Outcome State Fault Refusal

/-- While a power-on reset lasts every block holds its power-on value and no bus access is taken (R174): a command that
comes then has no effect. -/
def State.unlessHeld (s : State) (out : Out) : Out := if s.held then .next s else out

/-! ## The sheet (R1): sorted (address, word) pairs, no entry equal to the VOID word -/

/-- The word at an address; an unlisted address holds the VOID word. -/
def Sheet.read : List (Nat × Word) → Nat → Word
  | [], _ => voidWord
  | (a, w) :: rest, k => if k < a then voidWord else if k = a then w else Sheet.read rest k

/-- Put an entry in front, unless it is what an unlisted address reads as. -/
def Sheet.cons (a : Nat) (w : Word) (rest : List (Nat × Word)) : List (Nat × Word) :=
  if w = voidWord then rest else (a, w) :: rest

/-- Write a word, keeping the canonical form. -/
def Sheet.write : List (Nat × Word) → Nat → Word → List (Nat × Word)
  | [], k, v => Sheet.cons k v []
  | (a, w) :: rest, k, v =>
    if k < a then Sheet.cons k v ((a, w) :: rest)
    else if k = a then Sheet.cons k v rest
    else (a, w) :: Sheet.write rest k v

/-- Every address of the list is at least `lo`, below 32768 and strictly rising, and no entry is the VOID word. -/
def Sheet.wfFrom : Nat → List (Nat × Word) → Bool
  | _, [] => true
  | lo, (a, w) :: rest =>
    decide (lo ≤ a) && decide (a < Config.sheetWords) && !(w == voidWord) && Sheet.wfFrom (a + 1) rest

/-- The canonical form of the sheet. -/
def Sheet.wf (cells : List (Nat × Word)) : Bool := Sheet.wfFrom 0 cells

/-- Write the 16 words `f 0` to `f 15` of a row in one operation (R3). -/
def Sheet.writeRow (cells : List (Nat × Word)) (row : Nat) (f : Nat → Word) : List (Nat × Word) :=
  (List.range Config.sheetCols).foldl (fun c j => Sheet.write c (Config.sheetCols * row + j) (f j)) cells

/-- The initialisation sweep runs: INIT busy is shown (R13, R165). -/
def State.sweeping (s : State) : Bool := decide (s.sst.sweepPos < Config.sheetWords)

/-- The word an access of the store reads at an address: free where a running sweep has not come (R13, log 9). -/
def State.wordAt (s : State) (a : Nat) : Word :=
  if s.sweeping ∧ s.sst.sweepPos ≤ a then Config.unsweptWord a else Sheet.read s.sst.cells a

/-- Write one word of the sheet (R1). -/
def State.store (s : State) (a : Nat) (w : Word) : State :=
  { s with sst := { s.sst with cells := Sheet.write s.sst.cells a w } }

/-! ## Event flags -/

/-- Replace the sticky flags. -/
def State.setSticky (s : State) (f : Sticky) : State := { s with evu := { s.evu with sticky := f } }

/-- Set ACCESS (R158). -/
def State.setAccess (s : State) : State := s.setSticky { s.evu.sticky with access := true }

/-- Set XUNDER (R158). -/
def State.setXunder (s : State) : State := s.setSticky { s.evu.sticky with xunder := true }

/-- Set XOVER (R158). -/
def State.setXover (s : State) : State := s.setSticky { s.evu.sticky with xover := true }

/-! ## Scan timer -/

/-- The open record (R47). -/
def AcqState.openRec : AcqState → Option (Fin 8)
  | .pre n => some n
  | .waittrig n => some n
  | .post n => some n
  | _ => none

/-- The timer runs exactly in PRE, WAITTRIG and POST (R20). -/
def State.timerRunning (s : State) : Bool := s.acq.state.openRec.isSome

/-- Ticks a period word stands for: 0 stands for 65536 (R18). -/
def periodTicks (w : Word) : Nat := if w = 0#16 then 65536 else w.toNat

/-- The pending period becomes the active period (R19). -/
def State.promote (s : State) : State := { s with stm := { s.stm with active := periodTicks s.acq.cfg.period } }

/-- A start loads the counter with the active period and clears the prescaler count (R20). -/
def State.startTimer (s : State) : State := { s with stm := { s.stm with counter := s.stm.active, prescale := 0 } }

/-- The gate state: the sampled GATE line is at the level of the GATE polarity (R22). -/
def State.gateActive (s : State) : Bool := s.stm.gate != s.acq.cfg.gateLow

/-! ## Record table -/

/-- The record numbers, lowest first. -/
def recordNumbers : List (Fin 8) := [0, 1, 2, 3, 4, 5, 6, 7]

/-- Replace one descriptor. -/
def State.setRec (s : State) (n : Fin 8) (d : Descriptor) : State :=
  { s with rtb := { s.rtb with recs := s.rtb.recs.set n d } }

/-- The lowest-numbered FREE descriptor (R85). -/
def State.lowestFree (s : State) : Option (Fin 8) := recordNumbers.find? fun n => s.rtb.recs[n].state == .free

/-- The ring successor of a row (spec 01 §1.4). -/
def AcqTable.succ (t : AcqTable) (r : Nat) : Nat := if r + 1 = t.ringBase + t.ringLength then t.ringBase else r + 1

/-- A ring row lies inside a descriptor's arc (R8). -/
def Descriptor.holds (d : Descriptor) (t : AcqTable) (r : Nat) : Bool :=
  decide ((r + t.ringLength - d.start) % t.ringLength < d.length)

/-- The writer row lies inside a SEALED arc: the ring is blocked (R54). -/
def State.blocked (s : State) : Bool :=
  recordNumbers.any fun n => s.rtb.recs[n].state == .sealed && s.rtb.recs[n].holds s.acq.cfg s.acq.writer

/-- GAP on the open record (R26, R63). -/
def State.setGap (s : State) : State :=
  match s.acq.state.openRec with
  | some n => s.setRec n { s.rtb.recs[n] with gap := true }
  | none => s

/-- One more dropped scan, saturating (R65). -/
def State.countDrop (s : State) : State := { s with acq := { s.acq with dropped := Nat.min (s.acq.dropped + 1) 65535 } }

/-- A scan event reaches CNV: it starts a scan, or is a late scan (R25, R26, R42). -/
def State.scanEvent (s : State) : State :=
  match s.cnv.scan with
  | .free => { s with cnv := { s.cnv with scan := .converting ⟨[], 0, 0, 0⟩ } }
  | _ => (s.countDrop.setSticky { s.evu.sticky with late := true }).setGap

/-- The fields of a descriptor just allocated (R52). -/
def Descriptor.fresh (writer columns : Nat) : Descriptor :=
  { Descriptor.free with state := .opened, start := writer, columns := columns }

/-- The state ACQ enters with a new open record (R52, R61, R62). -/
def AcqTable.entry (t : AcqTable) (n : Fin 8) : AcqState := if t.preCount = 0 then .waittrig n else .pre n

/-- Descriptor `n` becomes the open record at the writer row; the LIMIT previous-state and the COUNT counter are reset
(R52, R61, R62, R80, R85). -/
def State.allocate (s : State) (n : Fin 8) : State :=
  { s.setRec n (Descriptor.fresh s.acq.writer s.acq.cfg.listLength) with
    acq := { s.acq with state := s.acq.cfg.entry n }
    tru := { s.tru with flagged := false, count := 0 } }

/-- The open record `n` becomes SEALED: it joins the end of the sealing order and SEALED is set (R60, R87). -/
def State.sealRec (s : State) (n : Fin 8) (truncated : Bool) : State :=
  { s with
    rtb :=
      { recs := s.rtb.recs.set n { s.rtb.recs[n] with state := .sealed, truncated := truncated, pins := 0 }
        order := s.rtb.order ++ [n] }
    evu := { s.evu with sticky := { s.evu.sticky with sealed := true } } }

/-- ACQ leaves the running states: the timer stops, and the pending period becomes active (R19, R20). -/
def State.halt (s : State) (st : AcqState) : State := { s.promote with acq := { s.acq with state := st } }

/-- What follows a seal at a commit: re-arm, STARVED or IDLE (R60, R61). -/
def State.afterSeal (s : State) : State :=
  if s.acq.cfg.rearm then
    match s.lowestFree with
    | some n => s.allocate n
    | none => (s.halt .starved).setSticky { s.evu.sticky with starved := true }
  else (s.halt .idle).setSticky { s.evu.sticky with acqdone := true }

/-- Free a descriptor and take it out of the sealing order (R94, R98). -/
def State.freeRec (s : State) (n : Fin 8) : State :=
  { s with rtb := { recs := s.rtb.recs.set n Descriptor.free, order := s.rtb.order.filter (· != n) } }

/-- What an accepted STOP does to the open record, by the ACQ state (R66, R98). -/
def State.endRecord (s : State) : State :=
  match s.acq.state with
  | .pre n => s.freeRec n
  | .waittrig n => s.freeRec n
  | .post n => s.sealRec n true
  | _ => s

/-- The STOP outcome: the scan is abandoned, the latches are cleared, the open record is freed or truncated, ACQ is
IDLE and the timer stopped (R44, R66, R81). -/
def State.stopOutcome (s : State) : State :=
  { s.endRecord.halt .idle with
    cnv := { s.cnv with scan := .free }
    tru := { s.tru with host := false, line := false } }

/-- One pin on each record of the list (R91). -/
def RecordTable.pin (rtb : RecordTable) (refs : List (Fin 8)) : RecordTable :=
  { rtb with
    recs := Vector.ofFn fun n : Fin 8 =>
      if n ∈ refs then { rtb.recs[n] with pins := rtb.recs[n].pins + 1 } else rtb.recs[n] }

/-- One pin less on each record of the list (R92). -/
def RecordTable.unpin (rtb : RecordTable) (refs : List (Fin 8)) : RecordTable :=
  { rtb with
    recs := Vector.ofFn fun n : Fin 8 =>
      if n ∈ refs then { rtb.recs[n] with pins := rtb.recs[n].pins - 1 } else rtb.recs[n] }

/-- No pin on any record (R99). -/
def RecordTable.unpinAll (rtb : RecordTable) : RecordTable :=
  { rtb with recs := rtb.recs.map fun d => { d with pins := 0 } }

/-! ## Results and the engine -/

/-- The answer to a command (R112). -/
def Staged.entry (c : Staged) (st : Status) (progress : Nat) (d : Detail) : Entry :=
  ⟨c.tagBits, c.kindBits, st, progress, d⟩

/-- Fill the pending place, where it stands (R110). -/
def fillPending (e : Entry) : List Place → List Place
  | [] => []
  | .pending :: ps => .posted e :: ps
  | .posted x :: ps => .posted x :: fillPending e ps

/-- Post the result of the command in the pending place: its pins are released and the engine is IDLE (R92, R124). -/
def State.post (s : State) (c : Staged) (st : Status) (progress : Nat) (d : Detail) : State :=
  { s with rq := fillPending (c.entry st progress d) s.rq, rtb := s.rtb.unpin c.refs, ble := .idle }

/-- XF emptied and the transfer timeout stopped (R155). -/
def State.emptyXf (s : State) : State := { s with xf := { s.xf with words := [], timeout := none } }

/-- The count a start of the transfer timeout loads: none when the value is 0 (R151). -/
def State.timeoutStart (s : State) : Option Nat :=
  if s.acq.cfg.timeout = 0#8 then none else some (s.acq.cfg.timeout.toNat * Config.timeoutUnit)

/-- The running command goes on in RUN, with this XF: the timeout does not run there (R151). -/
def State.toRun (s : State) (r : Running) (words : List Word) : State :=
  { s with ble := .run r, xf := { s.xf with words := words, timeout := none } }

/-- The running command waits for the host in XWAIT: the timeout starts, or starts again (R151). -/
def State.toXwait (s : State) (r : Running) (words : List Word) : State :=
  { s with ble := .xwait r, xf := { s.xf with words := words, timeout := s.timeoutStart } }

/-- A row commit waits at the store port (R42). -/
def State.commitWaits (s : State) : Bool :=
  match s.cnv.scan with
  | .presented _ => true
  | _ => false

/-- The port serves an access of the running command: the sweep does not hold the port, and no row commit waits unless
the access was in progress when it arrived (R12, R13, R43). -/
def State.portServes (s : State) (r : Running) : Bool := !s.sweeping && (r.busy || !s.commitWaits)

/-- The port is serving an access of the running command (R11). -/
def Engine.busy : Engine → Bool
  | .run r => r.busy
  | _ => false

/-- One of the accesses of the element in progress has been served or is being served (R140). -/
def Running.begun (r : Running) : Bool := r.busy || !r.reads.isEmpty

/-- The port serves the element in progress of the running command, if the engine is in RUN with a command `sel` accepts
and the port can serve it; otherwise the event does not occur (log 6). -/
def State.onElement (s : State) (sel : Staged → Bool) (f : Running → State → Out) : Out :=
  s.unlessHeld
    (match s.ble with
    | .run r => if sel r.cmd && s.portServes r then f r s else .next s
    | _ => .next s)

/-- An access of an element has been served, and `r` is the running command after it. A row commit that waits is served
before the element's next access, which then waits too; with none waiting that access is served, as `next` says (R11,
R12, log 15). -/
def State.between (s : State) (r : Running) (next : Running → State → Out) : Out :=
  if s.commitWaits then .next { s with ble := .run { r with busy := false } } else next r s

/-- The element in progress is complete (R138). -/
def Running.complete (r : Running) : Running := { r with progress := r.progress + 1, reads := [], busy := false }

/-- What follows a completed element of MOVE, FILL, SRCH or RDUC: the ABORTED answer of a marked command (R140), the
command's own answer if it has one, or the next element. -/
def State.endElement (s : State) (r : Running) (answer : Option (Status × Detail)) : State :=
  if r.aborting then (s.post r.cmd .aborted r.progress .none).emptyXf
  else
    match answer with
    | some (st, d) => s.post r.cmd st r.progress d
    | none => { s with ble := .run r }

/-- DONE once every element is complete (R124). -/
def Running.doneAnswer (r : Running) (d : Detail) : Option (Status × Detail) :=
  if r.cmd.total ≤ r.progress then some (.done, d) else none

/-- A new running command, no element completed (R120). -/
def Running.start (c : Staged) : Running := ⟨c, 0, 0, none, Stats.none, [], false, false⟩

/-- The command the engine holds in RUN or XWAIT (R119). -/
def Engine.running : Engine → Option Running
  | .idle => none
  | .run r => some r
  | .xwait r => some r

/-! ## Requests -/

/-- The outcome word after a request (R171). -/
def State.outcome (s : State) (code : BitVec 4) (r : Reason) : State := { s with hpi := { s.hpi with code := code, reason := r } }

/-- A refused request sets REFUSED and its reason, and nothing else (R170). -/
def State.refuse (s : State) (code : BitVec 4) (r : Reason) : State :=
  (s.outcome code r).setSticky { s.evu.sticky with refused := true }

/-- A request other than SRST: INIT while the sweep runs (R14), else refused with the reason `check` finds, else
accepted with its effect `act` (R170). -/
def State.request (s : State) (code : BitVec 4) (check : State → Option Reason) (act : State → State) : State :=
  match (if s.sweeping then some .init else check s) with
  | some r => s.refuse code r
  | none => (act s).outcome code .accepted

/-- ACQ is IDLE. -/
def State.acqIdle (s : State) : Bool := s.acq.state == .idle

/-- Every descriptor is FREE (R7). -/
def State.allFree (s : State) : Bool := recordNumbers.all fun n => s.rtb.recs[n].state == .free

/-! ## Level flags, the interrupt line and the words the host reads -/

/-- XFER_READY (R147). -/
def State.xferReady (s : State) : Bool :=
  match s.ble.running with
  | some r =>
    match r.cmd.kind with
    | some .xrd => !s.xf.words.isEmpty
    | some .xwr => decide (s.xf.words.length < r.capacity r.cmd.total)
    | _ => false
  | none => false

/-- RESULT (R157). -/
def State.resultFlag (s : State) : Bool := (headEntry s.rq).isSome

/-- TICKET (R157). -/
def State.ticketFlag (s : State) : Bool := decide (1 ≤ s.cq.tickets)

/-- The fourteen flags in the order of the EVENTS word (spec 11 §11.4). -/
def State.flags (s : State) : List Bool :=
  [s.resultFlag, s.ticketFlag, s.xferReady, s.evu.sticky.sealed, s.evu.sticky.acqdone, s.evu.sticky.starved,
    s.evu.sticky.trigger, s.evu.sticky.late, s.evu.sticky.blocked, s.evu.sticky.xunder, s.evu.sticky.xover,
    s.evu.sticky.access, s.evu.sticky.refused, s.evu.sticky.init]

/-- EVENTS as it reads (R159). -/
def State.eventsWord (s : State) : Word := BitVec.ofNat 16 (bitsToNat s.flags)

/-- The interrupt line is asserted while a flag and its enable are both set (R161), and released while a power-on reset
lasts (R174). -/
def State.irq (s : State) : Bool :=
  !s.held && (List.range 14).any fun i => s.eventsWord.getLsbD i && s.evu.enables.getLsbD i

/-- STATUS as it reads (R165). -/
def State.statusWord (s : State) : Word :=
  BitVec.ofNat 16
    (s.acq.state.code + 8 * (if s.sweeping then 3 else s.ble.code) + 32 * s.xferReady.toNat +
      64 * (match s.acq.state.openRec with | some n => n.val | none => 0) + 512 * (s.cq.queue.length % 8) +
      4096 * postedCount s.rq)

/-- The outcome word, the read of REQ (R171). -/
def State.outcomeWord (s : State) : Word := BitVec.ofNat 16 (s.hpi.code.toNat + 256 * s.hpi.reason.code)

/-- TPTR as it reads (R166). -/
def State.tptrWord (s : State) : Word :=
  BitVec.ofNat 16 (s.hpi.index + 256 * s.hpi.table.code + 32768 * s.hpi.autoInc.toNat)

/-- The record sealed earliest among those still SEALED (R90). -/
def State.oldest (s : State) : Option (Fin 8) := s.rtb.order.head?

/-- Word `i` of the COUNT table (R169). -/
def State.countWord (s : State) (i : Nat) : Word :=
  match i with
  | 0 => s.acq.committed.extractLsb' 0 16
  | 1 => s.acq.holding
  | 2 => BitVec.ofNat 16 s.acq.dropped
  | 3 => BitVec.ofNat 16 s.acq.writer
  | 4 => recordNumber s.acq.state.openRec
  | 5 => recordNumber s.oldest
  | 6 => BitVec.ofNat 16 s.cq.tickets
  | _ => BitVec.ofNat 16 (s.sst.sweepPos / Config.sheetCols)

/-- A word of a table as its owner holds it (R167). -/
def State.tableWord (s : State) (table : TableName) (i : Nat) : Word :=
  match table with
  | .scan => if h : i / 4 < 16 then s.cnv.slots[i / 4].word (i % 4) else 0#16
  | .acq => s.acq.cfg.word i
  | .record => if h : i / 8 < 8 then s.rtb.recs[i / 8].word (i % 8) else 0#16
  | .count => s.countWord i

/-- A staging word by its number, window word 0x08 + i (R100). -/
def Staged.word (c : Staged) (i : Nat) : Word :=
  match i with
  | 0 => c.ctl
  | 1 => c.tag
  | 2 => c.src
  | 3 => c.dst
  | 4 => c.recs
  | 5 => c.width
  | 6 => c.height
  | _ => c.param

/-- The staging words after word `i` is replaced (R100). -/
def Staged.withWord (c : Staged) (i : Nat) (v : Word) : Staged :=
  match i with
  | 0 => { c with ctl := v }
  | 1 => { c with tag := v }
  | 2 => { c with src := v }
  | 3 => { c with dst := v }
  | 4 => { c with recs := v }
  | 5 => { c with width := v }
  | 6 => { c with height := v }
  | _ => { c with param := v }

/-- The word XDATA returns at a read (R148). -/
def State.xdataWord (s : State) : Word :=
  match s.ble.running with
  | some r => if r.cmd.kind = some .xrd then s.xf.words.headD s.xf.last else voidWord
  | none => voidWord

/-- The word a read of the window word at `offset` returns (R164). At TDATA and XDATA the read is a command of its own
and this is the word it returns; every other read changes nothing. While a power-on reset lasts a read returns 0
(R174). -/
def State.readWindow (s : State) (offset : BitVec 5) : Word :=
  if s.held then 0#16
  else if offset = 0x00#5 then s.outcomeWord
  else if offset = 0x01#5 then s.statusWord
  else if offset = 0x02#5 then s.eventsWord
  else if offset = 0x03#5 then s.evu.enables.setWidth 16
  else if offset = 0x04#5 then s.tptrWord
  else if offset = 0x05#5 then s.tableWord s.hpi.table s.hpi.index
  else if offset = 0x06#5 then s.xdataWord
  else if 0x08#5 ≤ offset ∧ offset ≤ 0x0F#5 then s.cq.staging.word (offset.toNat - 8)
  else if 0x10#5 ≤ offset ∧ offset ≤ 0x19#5 then
    match headEntry s.rq with
    | some e => e.word (offset.toNat - 16)
    | none => 0#16
  else 0#16

end Sys2Proof.Machine
end

