-- ==== Sys2Proof/Machine/Acquisition.lean ====
section
/-! DEFINITION. The events of the acquisition path: timer expiry, line samples, the end of a slot, the row commit
(spec 02 to 05). -/

namespace Sys2Proof.Machine

/-! ## Scan events -/

/-- A tick of the prescaler counts in this state: the timer runs, in CONTINUOUS mode or in GATED mode with the gate
active (R21, R22). -/
def State.ticksCount (s : State) : Bool :=
  s.timerRunning &&
    match s.acq.cfg.timerMode with
    | .continuous => true
    | .gated => s.gateActive
    | .external => false

/-- An expiry delivers a scan event, promotes the pending period and reloads the counter (R21). -/
def expiry (s : State) : State := s.scanEvent.promote.startTimer

/-- TIMER_EXPIRY (R21, R22). A timer that cannot count makes no expiry (R20, R25, log 6). -/
def execTimerExpiry (s : State) : Out := s.unlessHeld (.next (if s.ticksCount then expiry s else s))

/-- SCAN_EDGE (R23, R24): the new sample of the SCAN line; a sample high after a sample low is a scan event while the
timer runs in EXTERNAL mode. -/
def execScanEdge (level : Bool) (s : State) : Out :=
  let s' := { s with stm := { s.stm with scan := level } }
  s.unlessHeld
    (.next
      (if level && !s.stm.scan && s.timerRunning && s.acq.cfg.timerMode == .external then s'.scanEvent.promote else s'))

/-- GATE_CHANGE (R22, R24): the new sample of the GATE line. -/
def execGateChange (level : Bool) (s : State) : Out :=
  s.unlessHeld (.next { s with stm := { s.stm with gate := level } })

/-- ACQ is PRE or WAITTRIG: a latch can be set (R70). -/
def AcqState.latching : AcqState → Bool
  | .pre _ => true
  | .waittrig _ => true
  | _ => false

/-- The new sample of the TRIG line makes an active edge (R72). -/
def activeEdge (fall old new : Bool) : Bool := (old != new) && (new != fall)

/-- TRIG_EDGE (R72): an active edge sets the LINE latch in PRE and WAITTRIG while LINE is enabled. -/
def execTrigEdge (level : Bool) (s : State) : Out :=
  s.unlessHeld
    (.next
      { s with
        tru :=
          { s.tru with
            sample := level
            line :=
              s.tru.line ||
                (activeEdge s.acq.cfg.lineFall s.tru.sample level && s.acq.state.latching && s.acq.cfg.mask.line) } })

/-! ## The end of a slot -/

/-- The codes of a slot's conversions: ZERO converts to 0 each time (R32). -/
def Slot.convert (slot : Slot) (code : Code) : Nat := if slot.source = .zero then 0 else code.toNat

/-- The sum of the slot's conversions: those already taken, and the rest of `codes` up to AVERAGE (R37, log 8). -/
def slotSum (slot : Slot) (c : Converting) (codes : Vector Code 8) : Nat :=
  c.sum + (((codes.toList.take slot.average.num).drop c.taken).map slot.convert).sum

/-- The sample word of a slot that has ended (R37, R39, R41). -/
def slotWord (slot : Slot) (c : Converting) (codes : Vector Code 8) : Word :=
  limitWord slot (slotSum slot c codes / slot.average.num)

/-- The row is dropped for the blocked ring (R63). -/
def blockedDrop (s : State) : State :=
  ({ s.countDrop with
      cnv := { s.cnv with scan := .free }
      evu := { s.evu with sticky := { s.evu.sticky with blocked := true } } } : State).setGap

/-- The row is presented to ACQ: dropped inside a SEALED arc, else it waits at the store port (R42, R54). -/
def present (row : List Word) (s : State) : State :=
  if s.blocked then blockedDrop s else { s with cnv := { s.cnv with scan := .presented row } }

/-- SLOT_END (R36, R42): the slot's word joins the scan buffer, and the next slot starts or the row is presented. With no
slot converting the event does not occur (log 6). -/
def execSlotEnd (codes : Vector Code 8) (s : State) : Out :=
  s.unlessHeld
    (match s.cnv.scan with
    | .converting c =>
      if h : c.buffer.length < 16 then
        let buffer := c.buffer ++ [slotWord s.cnv.slots[c.buffer.length] c codes]
        .next
          (if buffer.length < s.acq.cfg.listLength then
            { s with cnv := { s.cnv with scan := .converting ⟨buffer, 0, 0, 0⟩ } }
          else present buffer s)
      else .next s
    | _ => .next s)

/-! ## The row commit -/

/-- The word the LIMIT source watches: the row's word in column trigger slot, a VOID word at or beyond L (R74). -/
def watched (t : AcqTable) (row : List Word) : Word := row.getD t.trigSlot.val voidWord

/-- The watched word is flagged (R74). -/
def rowFlagged (s : State) (row : List Word) : Bool := s.acq.cfg.sense.judges (watched s.acq.cfg row)

/-- The COUNT counter after this commit (R75). -/
def countAfter (s : State) : Nat :=
  match s.acq.state with
  | .waittrig _ => Nat.min (s.tru.count + 1) 65535
  | _ => s.tru.count

/-- The enabled sources that fire at this commit (R73, R74, R75, R76). -/
def firing (s : State) (row : List Word) : Sources where
  host := s.acq.cfg.mask.host && s.tru.host
  line := s.acq.cfg.mask.line && s.tru.line
  limit := s.acq.cfg.mask.limit && rowFlagged s row && !s.tru.flagged
  count :=
    s.acq.cfg.mask.count &&
      match s.acq.state with
      | .waittrig _ => countAfter s == s.acq.cfg.trigCount
      | _ => false

/-- At least one source. -/
def Sources.any (m : Sources) : Bool := m.host || m.line || m.limit || m.count

/-- A trigger is taken at this commit: in WAITTRIG, or in PRE with EARLY set, when an enabled source fires (R76, R77). -/
def triggerTaken (s : State) (row : List Word) : Bool :=
  match s.acq.state with
  | .waittrig _ => (firing s row).any
  | .pre _ => s.acq.cfg.early && (firing s row).any
  | _ => false

/-- TRU after a commit (R70, R74, R75, R77). -/
def truAfter (s : State) (row : List Word) : TriggerUnit where
  host := s.tru.host && !s.acq.state.latching
  line := s.tru.line && !s.acq.state.latching
  flagged := rowFlagged s row
  count := countAfter s
  sample := s.tru.sample

/-- The word a commit writes in column `j` (R3). -/
def commitWord (row : List Word) (trigger : Bool) (j : Nat) : Word :=
  match row[j]? with
  | some w => if trigger then setMark w else w
  | none => voidWord

/-- The descriptor of a record at its trigger row (R58). -/
def Descriptor.triggered (d : Descriptor) (seq : BitVec 32) (causes : Sources) (early : Bool) : Descriptor :=
  { d with pre := d.length, length := d.length + 1, post := 0, trigSeq := seq, causes := causes, early := early }

/-- The trigger row of open record `n`: TRIGGER is set, and the record goes to POST or, with post count 0, is sealed
(R58, R60, R78). -/
def takeTrigger (s : State) (n : Fin 8) (seq : BitVec 32) (causes : Sources) (early : Bool) : State :=
  let s1 := (s.setRec n (s.rtb.recs[n].triggered seq causes early)).setSticky { s.evu.sticky with trigger := true }
  if s.acq.cfg.postCount = 0 then (s1.sealRec n false).afterSeal
  else { s1 with acq := { s1.acq with state := .post n } }

/-- A commit in PRE without a trigger (R56). -/
def growPre (s : State) (n : Fin 8) : State :=
  let s1 := s.setRec n { s.rtb.recs[n] with length := s.rtb.recs[n].length + 1 }
  if s.rtb.recs[n].length + 1 = s.acq.cfg.preCount then { s1 with acq := { s1.acq with state := .waittrig n } } else s1

/-- A commit in WAITTRIG without a trigger; the writer row has advanced (R57). -/
def slideWait (s : State) (n : Fin 8) : State :=
  s.setRec n
    { s.rtb.recs[n] with
      start := if s.acq.cfg.preCount = 0 then s.acq.writer else s.acq.cfg.succ s.rtb.recs[n].start }

/-- A commit in POST (R59). -/
def growPost (s : State) (n : Fin 8) : State :=
  let s1 :=
    s.setRec n { s.rtb.recs[n] with length := s.rtb.recs[n].length + 1, post := s.rtb.recs[n].post + 1 }
  if s.rtb.recs[n].post + 1 = s.acq.cfg.postCount then (s1.sealRec n false).afterSeal else s1

/-- Steps 1 to 4 of a row commit, and the end of the scan: the counter, TRU, the 16 words, the writer row (R55). -/
def commitRow (s : State) (row : List Word) : State :=
  { s with
    sst := { s.sst with cells := Sheet.writeRow s.sst.cells s.acq.writer (commitWord row (triggerTaken s row)) }
    cnv := { s.cnv with scan := .free }
    acq := { s.acq with committed := s.acq.committed + 1#32, writer := s.acq.cfg.succ s.acq.writer }
    tru := truAfter s row }

/-- Step 5 of a row commit: the open record (R55 to R59). -/
def commitRecord (s : State) (row : List Word) : State :=
  match s.acq.state with
  | .pre n =>
    if triggerTaken s row then takeTrigger (commitRow s row) n s.acq.committed (firing s row) true
    else growPre (commitRow s row) n
  | .waittrig n =>
    if triggerTaken s row then takeTrigger (commitRow s row) n s.acq.committed (firing s row) false
    else slideWait (commitRow s row) n
  | .post n => growPost (commitRow s row) n
  | _ => s

/-- ROW_COMMIT (R55). With no commit waiting, while the sweep holds the port, or while the port is serving an engine
access, which completes first (R12), the event does not occur (log 6). -/
def execRowCommit (s : State) : Out :=
  s.unlessHeld
    (match s.cnv.scan with
    | .presented row =>
      if s.timerRunning && !s.sweeping && !s.ble.busy then
        if s.acq.writer < Config.sheetRows then .next (commitRecord s row) else .fault .outsideSheet
      else .next s
    | _ => .next s)

end Sys2Proof.Machine
end

