-- ==== Sys2Proof/Machine/Engine.lean ====
section
/-! DEFINITION. The events of the block engine: taking a command, the elements of the six kinds, and the expiry of the
transfer timeout (spec 08, 09). -/

namespace Sys2Proof.Machine

/-! ## Taking the head command -/

/-- A command that passes the ring check starts: XWR waits for the host at once (R120, R146). -/
def startCommand (s : State) (c : Staged) : State :=
  if c.kind = some .xwr then s.toXwait (Running.start c) s.xf.words else { s with ble := .run (Running.start c) }

/-- Take command `c`, the head, with `rest` behind it (R120, R121). -/
def takeHead (s : State) (c : Staged) (rest : List Staged) : State :=
  let s1 := { s with cq := { s.cq with queue := rest }, rq := s.rq ++ [.pending] }
  if !s.acqIdle && c.overlapsRing s.acq.cfg then s1.post c .ringBusy 0 .none else startCommand s1 c

/-- TAKE (R120). With a command running or none queued the event does not occur (log 6). -/
def execTake (s : State) : Out :=
  s.unlessHeld
    (match s.ble, s.cq.queue with
    | .idle, c :: rest => .next (takeHead s c rest)
    | _, _ => .next s)

/-! ## MOVE -/

/-- The destination write of a MOVE element that has read `a`, and `b` at the destination: the element is complete
(R126). -/
def moveWrite (op : MoveOp) (a b : Word) (r : Running) (s : State) : Out :=
  match r.cmd.elementAddr r.cmd.dest s.acq.cfg s.rtb r.progress with
  | none => .fault .outsideSheet
  | some k => .next ((s.store k (combine op a b)).endElement r.complete (r.complete.doneAnswer .none))

/-- A MOVE element after its source read of `a`: COPY writes; a combining OP reads the destination word first (R126). -/
def moveRest (op : MoveOp) (a : Word) (r : Running) (s : State) : Out :=
  if op = .copy then moveWrite op a a r s
  else
    match r.cmd.elementAddr r.cmd.dest s.acq.cfg s.rtb r.progress with
    | none => .fault .outsideSheet
    | some k => s.between { r with reads := [a, s.wordAt k] } (moveWrite op a (s.wordAt k))

/-- One element of MOVE, from the access that it presents next (R126 to R129). A void source with SKIP_VOID ends the
element after the source read. -/
def moveElement (op : MoveOp) (r : Running) (s : State) : Out :=
  match r.reads with
  | [] =>
    match r.cmd.elementAddr r.cmd.source s.acq.cfg s.rtb r.progress with
    | none => .fault .outsideSheet
    | some k =>
      if isVoid (s.wordAt k) && r.cmd.skipVoid then .next (s.endElement r.complete (r.complete.doneAnswer .none))
      else s.between { r with reads := [s.wordAt k] } (moveRest op (s.wordAt k))
  | [a] => moveRest op a r s
  | a :: b :: _ => moveWrite op a b r s

/-- The command is a MOVE with this OP. -/
def Staged.isMove (op : MoveOp) (c : Staged) : Bool := c.kind == some .move && c.op == some op

/-- MOVE_COPY (R127). -/
def execMoveCopy (s : State) : Out := s.onElement (Staged.isMove .copy) (moveElement .copy)

/-- MOVE_ADDS (R128). -/
def execMoveAdds (s : State) : Out := s.onElement (Staged.isMove .adds) (moveElement .adds)

/-- MOVE_SUBS (R128). -/
def execMoveSubs (s : State) : Out := s.onElement (Staged.isMove .subs) (moveElement .subs)

/-- MOVE_MIN (R128). -/
def execMoveMin (s : State) : Out := s.onElement (Staged.isMove .min) (moveElement .min)

/-- MOVE_MAX (R128). -/
def execMoveMax (s : State) : Out := s.onElement (Staged.isMove .max) (moveElement .max)

/-- MOVE_MEAN (R128). -/
def execMoveMean (s : State) : Out := s.onElement (Staged.isMove .mean) (moveElement .mean)

/-! ## FILL -/

/-- One element of FILL (R131). -/
def fillElement (r : Running) (s : State) : Out :=
  match r.cmd.elementAddr r.cmd.dest s.acq.cfg s.rtb r.progress with
  | none => .fault .outsideSheet
  | some b => .next ((s.store b r.cmd.param).endElement r.complete (r.complete.doneAnswer .none))

/-- The command is of this kind. -/
def Staged.isKind (k : Kind) (c : Staged) : Bool := c.kind == some k

/-- FILL (R131). -/
def execFill (s : State) : Out := s.onElement (Staged.isKind .fill) fillElement

/-! ## SRCH -/

/-- What a SRCH answers after element `r.progress`, which holds `w`: FOUND at a match, NOT_FOUND after the last
element (R134). The row is the sheet row of an absolute SRC and the offset of a record-relative one. -/
def srchAnswer (cond : Cond) (r : Running) (w : Word) : Option (Status × Detail) :=
  if cond.holds r.cmd.threshold r.prev w then
    some (.found, .found r.progress (r.cmd.source.line + r.cmd.rowOf r.progress) w)
  else if r.cmd.h ≤ r.progress + 1 then some (.notFound, .none)
  else none

/-- One element of SRCH (R132, R133, R134). -/
def srchElement (cond : Cond) (r : Running) (s : State) : Out :=
  match r.cmd.elementAddr r.cmd.source s.acq.cfg s.rtb r.progress with
  | none => .fault .outsideSheet
  | some a =>
    .next (s.endElement { r.complete with prev := nextPrev r.prev (s.wordAt a) } (srchAnswer cond r (s.wordAt a)))

/-- The command is a SRCH with this condition. -/
def Staged.isSrch (cond : Cond) (c : Staged) : Bool := c.kind == some .srch && c.cond == some cond

/-- SRCH_ABOVE (R133). -/
def execSrchAbove (s : State) : Out := s.onElement (Staged.isSrch .above) (srchElement .above)

/-- SRCH_BELOW (R133). -/
def execSrchBelow (s : State) : Out := s.onElement (Staged.isSrch .below) (srchElement .below)

/-- SRCH_RISE (R133). -/
def execSrchRise (s : State) : Out := s.onElement (Staged.isSrch .rise) (srchElement .rise)

/-- SRCH_FALL (R133). -/
def execSrchFall (s : State) : Out := s.onElement (Staged.isSrch .fall) (srchElement .fall)

/-- SRCH_FLAGGED (R133). -/
def execSrchFlagged (s : State) : Out := s.onElement (Staged.isSrch .flagged) (srchElement .flagged)

/-- SRCH_MARKED (R133). -/
def execSrchMarked (s : State) : Out := s.onElement (Staged.isSrch .marked) (srchElement .marked)

/-- SRCH_VOIDED (R133). -/
def execSrchVoided (s : State) : Out := s.onElement (Staged.isSrch .voided) (srchElement .voided)

/-! ## RDUC -/

/-- The running command after RDUC has taken word `w`: the position is the reported row and the sheet column (R135). -/
def rducTake (r : Running) (w : Word) : Running :=
  { r.complete with
    stats :=
      r.stats.take w (r.cmd.source.line + r.cmd.rowOf r.progress) (r.cmd.source.col + r.cmd.colOf r.progress) }

/-- One element of RDUC (R135, R136). -/
def rducElement (r : Running) (s : State) : Out :=
  match r.cmd.elementAddr r.cmd.source s.acq.cfg s.rtb r.progress with
  | none => .fault .outsideSheet
  | some a =>
    .next
      (s.endElement (rducTake r (s.wordAt a))
        ((rducTake r (s.wordAt a)).doneAnswer (.reduced (rducTake r (s.wordAt a)).stats)))

/-- RDUC (R135). -/
def execRduc (s : State) : Out := s.onElement (Staged.isKind .rduc) rducElement

/-! ## XRD and XWR -/

/-- What follows an XRD source read, with `words` in XF: the ABORTED answer of a marked command (R140), XWAIT when XF
is full or every source element is read, else RUN (R137, R145). -/
def afterRead (s : State) (r : Running) (words : List Word) : State :=
  if r.aborting then (s.post r.cmd .aborted r.progress .none).emptyXf
  else if Config.fifoDepth ≤ words.length ∨ r.cmd.total ≤ r.fetched then s.toXwait r words
  else s.toRun r words

/-- One source read of XRD: the word joins the tail of XF (R145). It is presented while XF has room and source
elements remain. -/
def xrdElement (r : Running) (s : State) : Out :=
  if s.xf.words.length < Config.fifoDepth ∧ r.fetched < r.cmd.total then
    match r.cmd.elementAddr r.cmd.source s.acq.cfg s.rtb r.fetched with
    | none => .fault .outsideSheet
    | some a => .next (afterRead s { r with fetched := r.fetched + 1, busy := false } (s.xf.words ++ [s.wordAt a]))
  else .next s

/-- XRD (R145). -/
def execXrd (s : State) : Out := s.onElement (Staged.isKind .xrd) xrdElement

/-- What follows an XWR destination write, with `words` left in XF: the ABORTED answer of a marked command (R140),
DONE after the last, XWAIT with XF empty, else RUN (R137, R146, R150). -/
def afterWrite (s : State) (r : Running) (words : List Word) : State :=
  if r.aborting then (s.post r.cmd .aborted r.progress .none).emptyXf
  else if r.cmd.total ≤ r.progress then (s.post r.cmd .done r.progress .none).emptyXf
  else if words = [] then s.toXwait r words
  else s.toRun r words

/-- One destination write of XWR: the head word of XF is written and leaves XF (R146). -/
def xwrElement (r : Running) (s : State) : Out :=
  match s.xf.words with
  | [] => .next s
  | w :: rest =>
    match r.cmd.elementAddr r.cmd.dest s.acq.cfg s.rtb r.progress with
    | none => .fault .outsideSheet
    | some b => .next (afterWrite (s.store b w) r.complete rest)

/-- XWR (R146). -/
def execXwr (s : State) : Out := s.onElement (Staged.isKind .xwr) xwrElement

/-- TRANSFER_TIMEOUT (R153): TIMEOUT is posted, XF is emptied. A timeout that is not running does not expire
(R151, log 6). -/
def execTransferTimeout (s : State) : Out :=
  s.unlessHeld
    (match s.ble, s.xf.timeout with
    | .xwait r, some _ => .next (s.post r.cmd .timeout r.progress .none).emptyXf
    | _, _ => .next s)

end Sys2Proof.Machine
end

