-- ==== Sys2Proof/Machine/Clock.lean ====
section
/-! DEFINITION. What the block does on its own while no command waits (log 3, 4, 5): an event that is due at once is
put into the queue; with none due, one part-clock period passes, and the events that fall due in it are put into the
queue in a fixed order. The events themselves are the commands of the table. -/

namespace Sys2Proof.Machine

/-- The row of the table that is the element step of a command. -/
def Staged.elementStep (c : Staged) : List Instr :=
  match c.kind, c.op, c.cond with
  | some .move, some .copy, _ => [.moveCopy]
  | some .move, some .adds, _ => [.moveAdds]
  | some .move, some .subs, _ => [.moveSubs]
  | some .move, some .min, _ => [.moveMin]
  | some .move, some .max, _ => [.moveMax]
  | some .move, some .mean, _ => [.moveMean]
  | some .fill, _, _ => [.fill]
  | some .srch, _, some .above => [.srchAbove]
  | some .srch, _, some .below => [.srchBelow]
  | some .srch, _, some .rise => [.srchRise]
  | some .srch, _, some .fall => [.srchFall]
  | some .srch, _, some .flagged => [.srchFlagged]
  | some .srch, _, some .marked => [.srchMarked]
  | some .srch, _, some .voided => [.srchVoided]
  | some .rduc, _, _ => [.rduc]
  | some .xrd, _, _ => [.xrd]
  | some .xwr, _, _ => [.xwr]
  | _, _, _ => []

/-- The element in progress, while the port is serving an access of it. -/
def Engine.busyStep (e : Engine) : List Instr :=
  match e with
  | .run r => if r.busy then r.cmd.elementStep else []
  | _ => []

/-- What follows at once, with no time between: a row commit that waits, behind an engine access in progress (R12),
and the taking of the head command (R120). With both due the spec lets them come in either order (R55, R121), and the
model takes the commit first (log 5). -/
def State.dueNow (s : State) : List Instr :=
  if s.sweeping then []
  else if s.commitWaits then s.ble.busyStep ++ [.rowCommit]
  else if s.ble = .idle ∧ s.cq.queue ≠ [] then [.take]
  else []

/-- The sweep over one period: one word, or its last (R13). -/
def sweepPeriod (s : State) : SampleStore × List Instr :=
  if s.sweeping then
    if s.sst.sweepPos + 1 < Config.sheetWords then
      (⟨Sheet.write s.sst.cells s.sst.sweepPos voidWord, s.sst.sweepPos + 1⟩, [])
    else (s.sst, [.initSweepEnd])
  else (s.sst, [])

/-- The timer over one period: the prescaler counts, a counted tick decrements the counter, and the tick that finds it
at 1 is an expiry (R21, R22). -/
def timerPeriod (s : State) : ScanTimer × List Instr :=
  if s.timerRunning ∧ s.acq.cfg.timerMode ≠ .external then
    if s.stm.prescale + 1 < s.acq.cfg.prescaler.num then ({ s.stm with prescale := s.stm.prescale + 1 }, [])
    else if !s.ticksCount then ({ s.stm with prescale := 0 }, [])
    else if s.stm.counter ≤ 1 then ({ s.stm with prescale := 0 }, [.timerExpiry])
    else ({ s.stm with prescale := 0, counter := s.stm.counter - 1 }, [])
  else (s.stm, [])

/-- Part-clock periods from the start of a slot to the end of its k-th conversion (R35, R36). -/
def conversionEnd (slot : Slot) (divider : Power) (k : Nat) : Nat :=
  (slot.settle.toNat + Config.conversionClocks * k) * divider.num

/-- The converter over one period: settling and converting; a conversion that ends joins the running sum, the last one
ends the slot (R36, R37). Its code is a free value (log 8). -/
def converterPeriod (s : State) : Scan × Nat × List Instr :=
  match s.cnv.scan with
  | .converting c =>
    if h : c.buffer.length < 16 then
      let slot := s.cnv.slots[c.buffer.length]
      if c.clock + 1 < conversionEnd slot s.acq.cfg.divider (c.taken + 1) then
        (.converting { c with clock := c.clock + 1 }, s.conversions, [])
      else if c.taken + 1 < slot.average.num then
        (.converting
          { c with
            clock := c.clock + 1
            taken := c.taken + 1
            sum := c.sum + slot.convert (Config.conversionCode s.conversions) },
          s.conversions + 1, [])
      else (s.cnv.scan, s.conversions + 1, [.slotEnd (Vector.replicate 8 (Config.conversionCode s.conversions))])
    else (s.cnv.scan, s.conversions, [])
  | scan => (scan, s.conversions, [])

/-- The transfer timeout over one period (R151, R153). -/
def timeoutPeriod (s : State) : Option Nat × List Instr :=
  match s.xf.timeout with
  | some n => if n ≤ 1 then (some n, [.transferTimeout]) else (some (n - 1), [])
  | none => (none, [])

/-- The engine over one period: an access that waits begins service if the port is free for it, and an access that was
in service completes, with the rest of its element (log 4). -/
def enginePeriod (s : State) : Engine × List Instr :=
  match s.ble with
  | .run r =>
    if r.busy then (.run r, r.cmd.elementStep)
    else if s.portServes r then (.run { r with busy := true }, [])
    else (.run r, [])
  | e => (e, [])

/-- One part-clock period passes; `pending` is empty (log 3). -/
def period (s : State) : State :=
  { s with
    sst := (sweepPeriod s).1
    stm := (timerPeriod s).1
    cnv := { s.cnv with scan := (converterPeriod s).1 }
    conversions := (converterPeriod s).2.1
    xf := { s.xf with timeout := (timeoutPeriod s).1 }
    ble := (enginePeriod s).1
    pending :=
      (sweepPeriod s).2 ++ (converterPeriod s).2.2 ++ (timerPeriod s).2 ++ (timeoutPeriod s).2 ++ (enginePeriod s).2 }

/-- The block left to itself, its queue empty (log 3): while a power-on reset lasts nothing changes (R174). -/
def idle (s : State) : State :=
  if s.held then s else if s.dueNow = [] then period s else { s with pending := s.dueNow }

end Sys2Proof.Machine
end

