-- ==== Sys2Proof/Machine/Requests.lean ====
section
/-! DEFINITION. The requests: what each is refused for, in the order the spec checks, and what an accepted one does
(R50, R66, R71, R93, R102, R114, R115, R139, R170, R172). -/

namespace Sys2Proof.Machine

/-! ## ARM -/

/-- The conditions of ARM after the sweep, in order (R50). -/
def armRefusal (s : State) : Option Reason :=
  if !s.acqIdle then some .busy
  else if ¬(1 ≤ s.acq.cfg.listLength ∧ s.acq.cfg.listLength ≤ 16) then some .badList
  else if s.acq.cfg.ringLength < s.acq.cfg.preCount + 1 + s.acq.cfg.postCount then some .badGeometry
  else if s.cnv.slots.toList.any Slot.crossed then some .badLimits
  else if s.ble.running.any fun r => r.cmd.overlapsRing s.acq.cfg then some .engineInRing
  else if s.lowestFree = none then some .noRecord
  else none

/-- The effect of an accepted ARM: the lowest FREE descriptor is allocated, TRU is reset and the timer starts
(R52, R80, R20). -/
def armEffect (s : State) : State :=
  match s.lowestFree with
  | some n => { (s.allocate n).startTimer with tru := ⟨false, false, false, 0, s.tru.sample⟩ }
  | none => s

/-- ARM (R50, R52). -/
def execArm (s : State) : Out := s.unlessHeld (.next (s.request 2#4 armRefusal armEffect))

/-! ## STOP -/

/-- STOP is refused in IDLE (R66). -/
def stopRefusal (s : State) : Option Reason := if s.acqIdle then some .notArmed else none

/-- STOP (R66). -/
def execStop (s : State) : Out := s.unlessHeld (.next (s.request 3#4 stopRefusal State.stopOutcome))

/-! ## TRIG -/

/-- The conditions of TRIG after the sweep, in order (R71). -/
def trigRefusal (s : State) : Option Reason :=
  match s.acq.state with
  | .pre _ => if s.acq.cfg.mask.host then none else some .masked
  | .waittrig _ => if s.acq.cfg.mask.host then none else some .masked
  | _ => some .notArmed

/-- An accepted TRIG sets the HOST latch (R71). -/
def trigEffect (s : State) : State := { s with tru := { s.tru with host := true } }

/-- TRIG (R71). -/
def execTrig (s : State) : Out := s.unlessHeld (.next (s.request 4#4 trigRefusal trigEffect))

/-! ## SUBMIT -/

/-- The conditions of SUBMIT after the sweep, in order (R102). -/
def submitRefusal (s : State) : Option Reason :=
  if !s.cq.staging.kindOk then some .badKind
  else if !s.cq.staging.rectOk s.rtb then some .badRect
  else if !s.cq.staging.recordsOk s.rtb then some .badRecord
  else if !s.cq.staging.paramOk then some .badParam
  else if s.cq.tickets = 0 then some .full
  else none

/-- An accepted SUBMIT copies the staging words, takes a ticket, pins and queues (R107). -/
def submitEffect (s : State) : State :=
  { s with
    cq := { s.cq with queue := s.cq.queue ++ [s.cq.staging], tickets := s.cq.tickets - 1 }
    rtb := s.rtb.pin s.cq.staging.refs }

/-- SUBMIT (R102, R107). -/
def execSubmit (s : State) : Out := s.unlessHeld (.next (s.request 5#4 submitRefusal submitEffect))

/-! ## ABORT -/

/-- ABORT is refused when no command runs (R139). -/
def abortRefusal (s : State) : Option Reason := if s.ble.running = none then some .nothing else none

/-- An accepted ABORT answers ABORTED at once in XWAIT (R141), and in RUN when no element has begun; when one has, the
command is marked and stops at the element boundary (R140). -/
def abortEffect (s : State) : State :=
  match s.ble with
  | .idle => s
  | .run r =>
    if r.aborting then s
    else if r.begun then { s with ble := .run { r with aborting := true } }
    else (s.post r.cmd .aborted r.progress .none).emptyXf
  | .xwait r => (s.post r.cmd .aborted r.progress .none).emptyXf

/-- ABORT (R139). -/
def execAbort (s : State) : Out := s.unlessHeld (.next (s.request 6#4 abortRefusal abortEffect))

/-! ## FLUSH, POP -/

/-- FLUSH is refused when the command queue is empty (R115). -/
def flushRefusal (s : State) : Option Reason := if s.cq.queue.isEmpty then some .empty else none

/-- The answer FLUSHED to the head command: it leaves the queue, its entry joins the tail of the result queue, and its
pins are released (R115). -/
def flushOne (s : State) (c : Staged) : State :=
  { s with
    cq := { s.cq with queue := s.cq.queue.tail }
    rq := s.rq ++ [.posted (c.entry .flushed 0 .none)]
    rtb := s.rtb.unpin c.refs }

/-- An accepted FLUSH answers every queued command, head first (R115). -/
def flushEffect (s : State) : State := s.cq.queue.foldl flushOne s

/-- FLUSH (R115). -/
def execFlush (s : State) : Out := s.unlessHeld (.next (s.request 7#4 flushRefusal flushEffect))

/-- POP is refused while the result queue is not ready (R114). -/
def popRefusal (s : State) : Option Reason := if headEntry s.rq = none then some .empty else none

/-- An accepted POP removes the head entry and returns its ticket (R114). -/
def popEffect (s : State) : State :=
  { s with rq := s.rq.tail, cq := { s.cq with tickets := s.cq.tickets + 1 } }

/-- POP (R114). -/
def execPop (s : State) : Out := s.unlessHeld (.next (s.request 8#4 popRefusal popEffect))

/-! ## RLS -/

/-- The record a request argument names, if it is 0 to 7 (R93). -/
def recordOf (n : BitVec 12) : Option (Fin 8) := if h : n.toNat < 8 then some ⟨n.toNat, h⟩ else none

/-- The conditions of RLS after the sweep, in order (R93). -/
def rlsRefusal (n : BitVec 12) (s : State) : Option Reason :=
  match recordOf n with
  | none => some .badRecord
  | some m =>
    match s.rtb.recs[m].state with
    | .free => some .notSealed
    | .opened => some .isOpen
    | .sealed => if s.rtb.recs[m].pins = 0 then none else some .pinned

/-- An accepted RLS frees the descriptor; in STARVED it is allocated at once and the timer starts (R94, R95, R62). -/
def rlsEffect (n : BitVec 12) (s : State) : State :=
  match recordOf n with
  | none => s
  | some m => if s.acq.state = .starved then ((s.freeRec m).allocate m).startTimer else s.freeRec m

/-- RLS n (R93). -/
def execRls (n : BitVec 12) (s : State) : Out := s.unlessHeld (.next (s.request 9#4 (rlsRefusal n) (rlsEffect n)))

/-! ## SRST -/

/-- The word of the access that the running command presents next, if that access is a write: PARAM for FILL, the head
word of XF for XWR, and for MOVE the word it makes of those it has read (R126 to R129, R131, R146). -/
def State.nextWrite (s : State) (r : Running) : Option Word :=
  match r.cmd.kind, r.cmd.op, r.reads, s.xf.words with
  | some .fill, _, _, _ => some r.cmd.param
  | some .xwr, _, _, w :: _ => some w
  | some .move, some .copy, a :: _, _ => some a
  | some .move, some op, a :: b :: _, _ => some (combine op a b)
  | _, _, _, _ => none

/-- A write that the port is serving for the running command completes, and its word stands; an access that waits is
withdrawn, so a MOVE stopped before its write leaves its destination (R16, R143). -/
def finishWrite (s : State) : State :=
  match s.ble with
  | .run r =>
    if r.busy then
      match s.nextWrite r, r.cmd.elementAddr r.cmd.dest s.acq.cfg s.rtb r.progress with
      | some w, some a => s.store a w
      | _, _ => s
    else s
  | _ => s

/-- What a soft reset puts to its value after the STOP outcome (R172). -/
def softReset (s : State) : State :=
  { s with
    acq := { s.acq with committed := 0#32, holding := 0#16, dropped := 0 }
    tru := { s.tru with flagged := false, count := 0 }
    rtb := s.rtb.unpinAll
    cq := { s.cq with queue := [], tickets := Config.ticketTotal }
    rq := []
    ble := .idle
    xf := TransferFifo.reset
    evu := ⟨Sticky.clear, 0#14⟩
    hpi := ⟨.scan, 0, false, 1#4, .accepted⟩ }

/-- The whole soft reset (R172). -/
def srstEffect (s : State) : State := softReset (finishWrite s).stopOutcome

/-- SRST is accepted in every state (R172); while a power-on reset lasts it is not taken (R174). -/
def execSrst (s : State) : Out := s.unlessHeld (.next (srstEffect s))

/-! ## BAD_CODE_REQUEST and a write of REQ -/

/-- A code that names no request is refused with BAD_CODE, or with INIT during the sweep (R170, R14). -/
def badCodeState (code : BitVec 4) (s : State) : State := s.request code (fun _ => some .badCode) id

/-- A write of REQ, from the request it names (R170). -/
def requestWrite (c : Instr) (s : State) : State :=
  match c with
  | .srst => srstEffect s
  | .arm => s.request 2#4 armRefusal armEffect
  | .stop => s.request 3#4 stopRefusal State.stopOutcome
  | .trig => s.request 4#4 trigRefusal trigEffect
  | .submit => s.request 5#4 submitRefusal submitEffect
  | .abort => s.request 6#4 abortRefusal abortEffect
  | .flush => s.request 7#4 flushRefusal flushEffect
  | .pop => s.request 8#4 popRefusal popEffect
  | .rls n => s.request 9#4 (rlsRefusal n) (rlsEffect n)
  | .badCodeRequest code => badCodeState code s
  | _ => s

/-- BAD_CODE_REQUEST (R170). A code that does name a request, which is no well-formed operand, is that request with
argument 0 (log 18). -/
def execBadCodeRequest (code : BitVec 4) (s : State) : Out :=
  s.unlessHeld (.next (requestWrite (requestOf (code.setWidth 16)) s))

end Sys2Proof.Machine
end

