-- ==== Sys2Proof/Machine/HostPort.lean ====
section
/-! DEFINITION. The bus accesses: the transfer data word, the table port, the event words and the other window words
(spec 09 §9.4, 10, 11). -/

namespace Sys2Proof.Machine

/-! ## XDATA -/

/-- The transfer timeout starts again at an access taken in XWAIT that leaves the engine there (R151). -/
def State.touch (s : State) : State :=
  match s.ble with
  | .xwait _ => { s with xf := { s.xf with timeout := s.timeoutStart } }
  | _ => s

/-- The word an access returns to the host. -/
def State.give (s : State) (w : Word) : State := { s with busData := w }

/-- A read that takes no word and returns the VOID word (R148). -/
def voidRead (s : State) : State := ({ s.setXunder with xf := { s.xf with last := voidWord } } : State).touch.give voidWord

/-- An underrun of an XRD: the last returned word again (R148). -/
def underrunRead (s : State) : State := s.setXunder.touch.give s.xf.last

/-- What follows a word taken from an XRD, with `words` left in XF: DONE after the last, RUN when XF has room for a
source element that remains, else XWAIT with the timeout started again (R137, R148, R150, R151). -/
def afterTake (s : State) (r : Running) (words : List Word) : State :=
  if r.cmd.total ≤ r.progress then (s.post r.cmd .done r.progress .none).emptyXf
  else if words.length < Config.fifoDepth ∧ r.fetched < r.cmd.total then s.toRun r words
  else s.toXwait r words

/-- The host takes the head word `w` of an XRD (R148). -/
def takeWord (s : State) (r : Running) (w : Word) (rest : List Word) : State :=
  (afterTake { s with xf := { s.xf with last := w } } { r with progress := r.progress + 1 } rest).give w

/-- A read of XDATA (R148). A command that an ABORT has marked is still in RUN until its result is posted, and a read
meets it as such (R140, log 25). -/
def readXdata (s : State) : State :=
  match s.ble.running with
  | some r =>
    if r.cmd.kind = some .xrd then
      match s.xf.words with
      | w :: rest => takeWord s r w rest
      | [] => underrunRead s
    else voidRead s
  | none => voidRead s

/-- XDATA_READ (R148). While a power-on reset lasts it returns 0 (R174). -/
def execXdataRead (s : State) : Out := .next (if s.held then s.give 0#16 else readXdata s)

/-- A dropped write of XDATA (R149). -/
def dropWrite (s : State) : State := s.setXover.touch

/-- A write of XDATA (R149). A command that an ABORT has marked is still in RUN until its result is posted, and a write
meets it as such (R140, log 25). -/
def writeXdata (w : Word) (s : State) : State :=
  match s.ble.running with
  | some r =>
    if r.cmd.kind = some .xwr ∧ s.xf.words.length < r.capacity r.cmd.total then s.toRun r (s.xf.words ++ [w])
    else dropWrite s
  | none => dropWrite s

/-- XDATA_WRITE (R149). -/
def execXdataWrite (w : Word) (s : State) : Out := s.unlessHeld (.next (writeXdata w s))

/-! ## The table port -/

/-- A write of TPTR replaces table, index (modulo the table's size) and auto-increment bit (R166). -/
def writeTptr (w : Word) (s : State) : State :=
  { s with
    hpi :=
      { s.hpi with
        table := tableOf (field w 8 2)
        index := field w 0 6 % (tableOf (field w 8 2)).size
        autoInc := w.getLsbD 15 } }

/-- TPTR_WRITE (R166). -/
def execTptrWrite (w : Word) (s : State) : Out := s.unlessHeld (.next (writeTptr w s))

/-- The index after a TDATA access (R166). -/
def State.advance (s : State) : State :=
  if s.hpi.autoInc then { s with hpi := { s.hpi with index := (s.hpi.index + 1) % s.hpi.table.size } } else s

/-- A read of COUNT word 0 captures the high half of the committed-row counter (R65, R167). -/
def State.capture (s : State) : State :=
  if s.hpi.table = .count ∧ s.hpi.index = 0 then
    { s with acq := { s.acq with holding := s.acq.committed.extractLsb' 16 16 } }
  else s

/-- A read of TDATA (R167). -/
def readTdata (s : State) : State := (s.give (s.tableWord s.hpi.table s.hpi.index)).capture.advance

/-- TDATA_READ (R167). While a power-on reset lasts it returns 0 (R174). -/
def execTdataRead (s : State) : Out := .next (if s.held then s.give 0#16 else readTdata s)

/-- The write of a SCAN table word, if accepted: ACQ IDLE and defined codes (R30). -/
def writeScan (s : State) (i : Nat) (w : Word) : Option State :=
  if h : i / 4 < 16 then
    if s.acqIdle then
      (s.cnv.slots[i / 4].withWord (i % 4) w).map fun slot =>
        { s with cnv := { s.cnv with slots := s.cnv.slots.set (i / 4) slot } }
    else none
  else none

/-- Whether an ACQ table word is open to a write in this state: words 11 and 13 always, 0 and 1 with ACQ IDLE and every
descriptor FREE, the others with ACQ IDLE (R7, R49). -/
def acqUnlocked (s : State) (i : Nat) : Bool :=
  match i with
  | 11 => true
  | 13 => true
  | 0 => s.acqIdle && s.allFree
  | 1 => s.acqIdle && s.allFree
  | _ => s.acqIdle

/-- What an accepted write of an ACQ table word does besides: the ring geometry moves the writer row to the ring base
(R7, R53), and a period written while the timer is stopped is active at once (R19). -/
def acqWritten (s : State) (i : Nat) (t : AcqTable) : State :=
  match i with
  | 0 => { s with acq := { s.acq with cfg := t, writer := t.ringBase } }
  | 1 => { s with acq := { s.acq with cfg := t, writer := t.ringBase } }
  | 11 => if s.timerRunning then { s with acq := { s.acq with cfg := t } } else State.promote { s with acq := { s.acq with cfg := t } }
  | _ => { s with acq := { s.acq with cfg := t } }

/-- The write of an ACQ table word, if accepted (R49). -/
def writeAcq (s : State) (i : Nat) (w : Word) : Option State :=
  if acqUnlocked s i then (s.acq.cfg.withWord i w).map (acqWritten s i) else none

/-- The write of a table word, if its owner accepts it; RECORD and COUNT never do (R168). -/
def writeTable (s : State) (w : Word) : Option State :=
  match s.hpi.table with
  | .scan => writeScan s s.hpi.index w
  | .acq => writeAcq s s.hpi.index w
  | .record => none
  | .count => none

/-- A write of TDATA: accepted, or discarded with ACCESS; the index moves either way (R166, R168). -/
def writeTdata (w : Word) (s : State) : State := ((writeTable s w).getD s.setAccess).advance

/-- TDATA_WRITE (R168). -/
def execTdataWrite (w : Word) (s : State) : Out := s.unlessHeld (.next (writeTdata w s))

/-! ## EVENTS and ENABLES -/

/-- EVENTS_WRITE (R159): each sticky flag written as 1 is cleared. -/
def execEventsWrite (w : Word) (s : State) : Out := s.unlessHeld (.next (s.setSticky (s.evu.sticky.clearBy w)))

/-- A write of ENABLES replaces all fourteen enables (R161). -/
def writeEnables (w : Word) (s : State) : State := { s with evu := { s.evu with enables := w.extractLsb' 0 14 } }

/-- ENABLES_WRITE (R161). -/
def execEnablesWrite (w : Word) (s : State) : Out := s.unlessHeld (.next (writeEnables w s))

/-! ## The other window words -/

/-- A write of the window word at `offset` (R164): the staging words take it, STATUS and the result window ignore it,
an unassigned word sets ACCESS. A write of a word with rows of its own has that row's effect (log 18). -/
def windowWrite (offset : BitVec 5) (w : Word) (s : State) : State :=
  if offset = 0x00#5 then requestWrite (requestOf w) s
  else if offset = 0x01#5 then s
  else if offset = 0x02#5 then s.setSticky (s.evu.sticky.clearBy w)
  else if offset = 0x03#5 then writeEnables w s
  else if offset = 0x04#5 then writeTptr w s
  else if offset = 0x05#5 then writeTdata w s
  else if offset = 0x06#5 then writeXdata w s
  else if offset = 0x07#5 then s.setAccess
  else if offset ≤ 0x0F#5 then
    { s with cq := { s.cq with staging := s.cq.staging.withWord (offset.toNat - 8) w } }
  else if offset ≤ 0x19#5 then s
  else s.setAccess

/-- WINDOW_WRITE (R164). -/
def execWindowWrite (offset : BitVec 5) (w : Word) (s : State) : Out := s.unlessHeld (.next (windowWrite offset w s))

end Sys2Proof.Machine
end

