-- ==== Sys2Proof/Machine/Resets.lean ====
section
/-! DEFINITION. Power-on reset and the end of the initialisation sweep (R13, R15, R174). -/

namespace Sys2Proof.Machine

/-- POWER_ON_RESET (R174): every block at its power-on value. Without `held` the reset ends with it and the sweep stands
at its start; with `held` it lasts, until a POWER_ON_RESET without `held` ends it (log 16). The waiting commands and the
model's counter of free conversion codes go on (log 12). -/
def execPowerOnReset (held gate : Bool) (edges : EdgeLines) (s : State) : Out :=
  .next { State.powerOn gate edges.scan edges.trig with held := held, conversions := s.conversions, pending := s.pending }

/-- The sweep writes its last word: every word is the VOID word, INIT busy clears, INIT is set (R13). -/
def sweepEnd (s : State) : State :=
  { s with sst := ⟨[], Config.sheetWords⟩, evu := { s.evu with sticky := { s.evu.sticky with init := true } } }

/-- INIT_SWEEP_END (R13). With no sweep running the event does not occur (log 6). -/
def execInitSweepEnd (s : State) : Out := s.unlessHeld (.next (if s.sweeping then sweepEnd s else s))

end Sys2Proof.Machine
end

