-- ==== Sys2Proof/Machine/Dispatch.lean ====
section
/-! DEFINITION. One arm per row of the command table. -/

namespace Sys2Proof.Machine

def exec (i : Instr) (s : State) : Host.Outcome State Fault Refusal :=
  match i with
  | .powerOnReset held gate edges => Sys2Proof.Machine.execPowerOnReset held gate edges s
  | .initSweepEnd => Sys2Proof.Machine.execInitSweepEnd s
  | .srst => Sys2Proof.Machine.execSrst s
  | .arm => Sys2Proof.Machine.execArm s
  | .stop => Sys2Proof.Machine.execStop s
  | .trig => Sys2Proof.Machine.execTrig s
  | .submit => Sys2Proof.Machine.execSubmit s
  | .abort => Sys2Proof.Machine.execAbort s
  | .flush => Sys2Proof.Machine.execFlush s
  | .pop => Sys2Proof.Machine.execPop s
  | .rls n => Sys2Proof.Machine.execRls n s
  | .badCodeRequest code => Sys2Proof.Machine.execBadCodeRequest code s
  | .timerExpiry => Sys2Proof.Machine.execTimerExpiry s
  | .scanEdge level => Sys2Proof.Machine.execScanEdge level s
  | .gateChange level => Sys2Proof.Machine.execGateChange level s
  | .trigEdge level => Sys2Proof.Machine.execTrigEdge level s
  | .slotEnd codes => Sys2Proof.Machine.execSlotEnd codes s
  | .rowCommit => Sys2Proof.Machine.execRowCommit s
  | .take => Sys2Proof.Machine.execTake s
  | .moveCopy => Sys2Proof.Machine.execMoveCopy s
  | .moveAdds => Sys2Proof.Machine.execMoveAdds s
  | .moveSubs => Sys2Proof.Machine.execMoveSubs s
  | .moveMin => Sys2Proof.Machine.execMoveMin s
  | .moveMax => Sys2Proof.Machine.execMoveMax s
  | .moveMean => Sys2Proof.Machine.execMoveMean s
  | .fill => Sys2Proof.Machine.execFill s
  | .srchAbove => Sys2Proof.Machine.execSrchAbove s
  | .srchBelow => Sys2Proof.Machine.execSrchBelow s
  | .srchRise => Sys2Proof.Machine.execSrchRise s
  | .srchFall => Sys2Proof.Machine.execSrchFall s
  | .srchFlagged => Sys2Proof.Machine.execSrchFlagged s
  | .srchMarked => Sys2Proof.Machine.execSrchMarked s
  | .srchVoided => Sys2Proof.Machine.execSrchVoided s
  | .rduc => Sys2Proof.Machine.execRduc s
  | .xrd => Sys2Proof.Machine.execXrd s
  | .xwr => Sys2Proof.Machine.execXwr s
  | .xdataRead => Sys2Proof.Machine.execXdataRead s
  | .xdataWrite w => Sys2Proof.Machine.execXdataWrite w s
  | .transferTimeout => Sys2Proof.Machine.execTransferTimeout s
  | .tptrWrite w => Sys2Proof.Machine.execTptrWrite w s
  | .tdataRead => Sys2Proof.Machine.execTdataRead s
  | .tdataWrite w => Sys2Proof.Machine.execTdataWrite w s
  | .eventsWrite w => Sys2Proof.Machine.execEventsWrite w s
  | .enablesWrite w => Sys2Proof.Machine.execEnablesWrite w s
  | .windowWrite offset w => Sys2Proof.Machine.execWindowWrite offset w s

end Sys2Proof.Machine
end

