-- ==== Sys2Proof/Safety.lean ====
section
/-! DEFINITION. What the claims call a sound state. Each predicate gathers rules of the spec that hold at every moment;
each is stated to hold at reset and to be kept by every step, from every state and not only from those a run reaches. -/

namespace Sys2Proof.Machine

/-- The sheet is in canonical form and the sweep position is 0 to 32768 (R1, R13). -/
def SheetSound (s : State) : Prop := Sheet.wf s.sst.cells = true ∧ s.sst.sweepPos ≤ Config.sheetWords

/-- R7: the ring geometry; R53: the writer row is a ring row. -/
def RingSound (s : State) : Prop :=
  16 ≤ s.acq.cfg.ringLength ∧ s.acq.cfg.ringLength ≤ 2048 ∧ s.acq.cfg.ringBase + s.acq.cfg.ringLength ≤ 2048 ∧
    s.acq.cfg.ringBase ≤ s.acq.writer ∧ s.acq.writer < s.acq.cfg.ringBase + s.acq.cfg.ringLength

/-- R48: the numeric words of the ACQ table lie in their ranges; R166: the index lies in its table; R65, R75: the
saturating counters. -/
def RangesSound (s : State) : Prop :=
  s.acq.cfg.preCount ≤ 2047 ∧ s.acq.cfg.postCount ≤ 2047 ∧ s.acq.cfg.listLength ≤ 16 ∧
    (1 ≤ s.acq.cfg.trigCount ∧ s.acq.cfg.trigCount ≤ 65535) ∧ s.hpi.index < s.hpi.table.size ∧
    s.acq.dropped ≤ 65535 ∧ s.tru.count ≤ 65535

/-- 1 while the engine holds a command (R108). -/
def runningCount (s : State) : Nat := s.ble.running.toList.length

/-- The pending places of the result queue. -/
def pendingCount (rq : List Place) : Nat := rq.countP fun p => p matches .pending

/-- R108: queued commands, running command, posted entries and free tickets are 8 together; R110: one pending place
exists exactly while a command runs. -/
def TicketsSound (s : State) : Prop :=
  s.cq.tickets + s.cq.queue.length + runningCount s + postedCount s.rq = Config.ticketTotal ∧
    pendingCount s.rq = runningCount s

/-- R47: a record is OPEN exactly when ACQ holds its number; R90: the sealing order lists each SEALED descriptor once;
R83: a FREE descriptor reads 0 in every field and an OPEN one has no pin. -/
def RecordsSound (s : State) : Prop :=
  (∀ n : Fin 8, s.rtb.recs[n].state = .opened ↔ s.acq.state.openRec = some n) ∧
    s.rtb.order.Nodup ∧ (∀ n : Fin 8, n ∈ s.rtb.order ↔ s.rtb.recs[n].state = .sealed) ∧
    (∀ n : Fin 8, s.rtb.recs[n].state = .free → s.rtb.recs[n] = Descriptor.free) ∧
    ∀ n : Fin 8, s.rtb.recs[n].state = .opened → s.rtb.recs[n].pins = 0 ∧ s.rtb.recs[n].truncated = false

/-- R25, R29: a scan is in progress only in PRE, WAITTRIG or POST, its buffer is short of L while it converts and holds
L words when its row is presented; R36, R37: the slot that converts has conversions outstanding, and its sum is one of
codes 0 to 4095; R50: outside IDLE, L is 1 to 16 and one record fits the ring. -/
def ScanSound (s : State) : Prop :=
  (s.acqIdle = false →
      1 ≤ s.acq.cfg.listLength ∧ s.acq.cfg.listLength ≤ 16 ∧
        s.acq.cfg.preCount + 1 + s.acq.cfg.postCount ≤ s.acq.cfg.ringLength) ∧
    match s.cnv.scan with
    | .free => True
    | .converting c =>
      s.timerRunning = true ∧ c.buffer.length < s.acq.cfg.listLength ∧ c.sum ≤ 4095 * c.taken ∧
        ∀ i : Fin 16, c.buffer.length = i.val → c.taken < s.cnv.slots[i].average.num
    | .presented row => s.timerRunning = true ∧ row.length = s.acq.cfg.listLength

/-- R19, R20, R21: the active period is 1 to 65536 and equals the pending period while the timer is stopped; while it
runs the counter is 1 to 65536. -/
def TimerSound (s : State) : Prop :=
  (1 ≤ s.stm.active ∧ s.stm.active ≤ 65536) ∧
    (s.timerRunning = false → s.stm.active = periodTicks s.acq.cfg.period) ∧
    (s.timerRunning = true →
      (1 ≤ s.stm.counter ∧ s.stm.counter ≤ 65536) ∧ s.stm.prescale < s.acq.cfg.prescaler.num)

/-- A command SUBMIT's first two checks let through (R103, R104): its kind is named and its rectangle has a word. -/
def CommandSound (c : Staged) : Prop := c.kindOk = true ∧ 1 ≤ c.w ∧ c.w ≤ 16 ∧ 1 ≤ c.h ∧ c.h ≤ 2048

/-- R126, R140: the element in progress has read at most its source and its destination word, which only a MOVE does, and
a COPY its source word alone; a command marked by ABORT has an element in progress. -/
def ElementSound (r : Running) : Prop :=
  r.reads.length ≤ 2 ∧ (r.cmd.kind ≠ some .move → r.reads = []) ∧ (r.cmd.op = some .copy → r.reads.length ≤ 1) ∧
    (r.aborting = true → r.begun = true)

/-- R137, R144 to R146: what XF holds, by the engine state and the kind of the running command; R151: the transfer
timeout runs only in XWAIT, where no access is in progress and no ABORT waits (R141). -/
def TransferSound (s : State) : Prop :=
  (∀ c ∈ s.cq.queue, CommandSound c) ∧
    match s.ble with
    | .idle => s.xf.words = [] ∧ s.xf.timeout = none
    | .run r =>
      CommandSound r.cmd ∧ ElementSound r ∧ r.progress < r.cmd.total ∧ s.xf.timeout = none ∧
        (if r.cmd.kind = some .xrd then
          r.fetched = r.progress + s.xf.words.length ∧ r.fetched < r.cmd.total ∧ s.xf.words.length < Config.fifoDepth
        else if r.cmd.kind = some .xwr then s.xf.words ≠ [] ∧ s.xf.words.length ≤ r.capacity r.cmd.total
        else s.xf.words = [])
    | .xwait r =>
      CommandSound r.cmd ∧ r.begun = false ∧ r.aborting = false ∧ r.progress < r.cmd.total ∧
        (∀ n ∈ s.xf.timeout, 1 ≤ n ∧ n ≤ 16711680) ∧
        (if r.cmd.kind = some .xrd then
          r.fetched = r.progress + s.xf.words.length ∧ r.fetched ≤ r.cmd.total ∧ s.xf.words ≠ [] ∧
            s.xf.words.length ≤ Config.fifoDepth ∧ (s.xf.words.length = Config.fifoDepth ∨ r.fetched = r.cmd.total)
        else r.cmd.kind = some .xwr ∧ s.xf.words = [])

/-- The commands that hold a pin on each record they reference: the queued ones and the running one (R91). -/
def holders (s : State) : List Staged := s.cq.queue ++ s.ble.running.toList.map (·.cmd)

/-- R91: a record's PINS is the number of queued and running commands that reference it, and a referenced record is
SEALED; R97: every such command lies within its bounds as the records stand. -/
def PinsSound (s : State) : Prop :=
  (∀ n : Fin 8, s.rtb.recs[n].pins = (holders s).countP fun c => decide (n ∈ c.refs)) ∧
    ∀ c ∈ holders s, c.kindOk = true ∧ c.rectOk s.rtb = true ∧ c.recordsOk s.rtb = true

/-- R88, R57: a SEALED record has LENGTH = PRE + 1 + POST; the open record holds fewer than, exactly, or PRE + 1 + POST
rows by the ACQ state; every held record starts on a ring row and is no longer than the ring (R8). -/
def ShapesSound (s : State) : Prop :=
  (∀ n : Fin 8, s.rtb.recs[n].state ≠ .free →
      s.acq.cfg.ringBase ≤ s.rtb.recs[n].start ∧ s.rtb.recs[n].start < s.acq.cfg.ringBase + s.acq.cfg.ringLength ∧
        s.rtb.recs[n].length ≤ s.acq.cfg.ringLength ∧ 1 ≤ s.rtb.recs[n].columns ∧ s.rtb.recs[n].columns ≤ 16) ∧
    (∀ n : Fin 8, s.rtb.recs[n].state = .sealed →
      s.rtb.recs[n].length = s.rtb.recs[n].pre + 1 + s.rtb.recs[n].post ∧ s.rtb.recs[n].causes.any = true) ∧
    match s.acq.state with
    | .pre n => s.rtb.recs[n].length < s.acq.cfg.preCount ∧ s.rtb.recs[n].causes = Sources.none
    | .waittrig n => s.rtb.recs[n].length = s.acq.cfg.preCount ∧ s.rtb.recs[n].causes = Sources.none
    | .post n =>
      s.rtb.recs[n].length = s.rtb.recs[n].pre + 1 + s.rtb.recs[n].post ∧ s.rtb.recs[n].pre ≤ s.acq.cfg.preCount ∧
        s.rtb.recs[n].post < s.acq.cfg.postCount ∧ s.rtb.recs[n].causes.any = true
    | _ => True

/-- R8: a ring row lies inside at most one arc of the non-FREE descriptors; R86: the open record's arc ends at the ring
predecessor of the writer row; R54: no SEALED arc holds the writer row while a commit waits. -/
def ArcsSound (s : State) : Prop :=
  (∀ m n : Fin 8, m ≠ n → s.rtb.recs[m].state ≠ .free → s.rtb.recs[n].state ≠ .free →
      ∀ r, s.acq.cfg.ringBase ≤ r → r < s.acq.cfg.ringBase + s.acq.cfg.ringLength →
        ¬(s.rtb.recs[m].holds s.acq.cfg r = true ∧ s.rtb.recs[n].holds s.acq.cfg r = true)) ∧
    (∀ n, s.acq.state.openRec = some n →
      s.acq.writer = mapOffset s.acq.cfg s.rtb.recs[n] s.rtb.recs[n].length) ∧
    ∀ row, s.cnv.scan = .presented row → s.blocked = false

/-- R13, R14: while the sweep runs ACQ and the engine are IDLE, the queues are empty and every descriptor is FREE. -/
def SweepSound (s : State) : Prop :=
  s.sweeping = true → s.acqIdle = true ∧ s.ble = .idle ∧ s.cq.queue = [] ∧ s.rq = [] ∧ s.allFree = true

/-- R10, R50, R121: while ACQ is not IDLE no running command overlaps the ring. -/
def RingKeptClear (s : State) : Prop := s.acqIdle = false → ∀ r ∈ s.ble.running, r.cmd.overlapsRing s.acq.cfg = false

/-- R70, R79: a latch is set only in PRE and WAITTRIG, and only for an enabled source; the COUNT counter is 0 in
PRE (R75). -/
def LatchesSound (s : State) : Prop :=
  (s.tru.host = true → s.acq.state.latching = true ∧ s.acq.cfg.mask.host = true) ∧
    (s.tru.line = true → s.acq.state.latching = true ∧ s.acq.cfg.mask.line = true) ∧
    ∀ n, s.acq.state = .pre n → s.tru.count = 0

/-- What keeps every access of the store inside the sheet. -/
def StoreSound (s : State) : Prop := RingSound s ∧ RecordsSound s ∧ TransferSound s ∧ PinsSound s

/-! ## What the claims say of a next state -/

/-- The blocks of the state, with the model's own fields. -/
inductive Block where
  | sst | stm | cnv | acq | tru | rtb | cq | rq | ble | xf | evu | hpi | held | bus | conversions | pending
deriving DecidableEq, Repr

/-- A block is the same in two states. -/
def Block.same (s t : State) : Block → Prop
  | .sst => t.sst = s.sst
  | .stm => t.stm = s.stm
  | .cnv => t.cnv = s.cnv
  | .acq => t.acq = s.acq
  | .tru => t.tru = s.tru
  | .rtb => t.rtb = s.rtb
  | .cq => t.cq = s.cq
  | .rq => t.rq = s.rq
  | .ble => t.ble = s.ble
  | .xf => t.xf = s.xf
  | .evu => t.evu = s.evu
  | .hpi => t.hpi = s.hpi
  | .held => t.held = s.held
  | .bus => t.busData = s.busData
  | .conversions => t.conversions = s.conversions
  | .pending => t.pending = s.pending

/-- Every block outside the list is as it was. -/
def KeptBut (bs : List Block) (s t : State) : Prop := ∀ b, b ∉ bs → b.same s t

/-- The sheet after a write of `w` at `a`: every other word reads as before (R1, R4). -/
def Stored (s t : State) (a : Nat) (w : Word) : Prop :=
  t.sst.sweepPos = s.sst.sweepPos ∧
    ∀ k, Sheet.read t.sst.cells k = if k = a then w else Sheet.read s.sst.cells k

/-- A request is refused (R170): the outcome word shows its code and the reason, REFUSED is set, and nothing else
changes. -/
def RefusedWith (code : BitVec 4) (r : Reason) (s t : State) : Prop :=
  t.hpi = { s.hpi with code := code, reason := r } ∧
    t.evu = { s.evu with sticky := { s.evu.sticky with refused := true } } ∧ KeptBut [.hpi, .evu] s t

/-- The outcome word shows the code with ACCEPTED, and the table pointer is as it was (R171). -/
def AcceptedAs (code : BitVec 4) (s t : State) : Prop := t.hpi = { s.hpi with code := code, reason := .accepted }

/-- Of ordered conditions with their refusal reasons, `r` is the reason of the first that fails. -/
def FirstFailure : List (Prop × Reason) → Reason → Prop
  | [], _ => False
  | (p, q) :: rest, r => (¬p ∧ r = q) ∨ (p ∧ FirstFailure rest r)

/-- Every condition of the list holds. -/
def AllHold : List (Prop × Reason) → Prop
  | [] => True
  | (p, _) :: rest => p ∧ AllHold rest

/-- The conditions of ARM in order (R50). -/
def armChecks (s : State) : List (Prop × Reason) :=
  [(s.sweeping = false, .init), (s.acq.state = .idle, .busy),
    (1 ≤ s.acq.cfg.listLength ∧ s.acq.cfg.listLength ≤ 16, .badList),
    (s.acq.cfg.preCount + 1 + s.acq.cfg.postCount ≤ s.acq.cfg.ringLength, .badGeometry),
    (∀ i : Fin 16, s.cnv.slots[i].limits = true → s.cnv.slots[i].low.toNat ≤ s.cnv.slots[i].high.toNat, .badLimits),
    (∀ r ∈ s.ble.running, r.cmd.overlapsRing s.acq.cfg = false, .engineInRing),
    (∃ n : Fin 8, s.rtb.recs[n].state = .free, .noRecord)]

/-- The conditions of STOP in order (R66). -/
def stopChecks (s : State) : List (Prop × Reason) :=
  [(s.sweeping = false, .init), (s.acq.state ≠ .idle, .notArmed)]

/-- The conditions of TRIG in order (R71). -/
def trigChecks (s : State) : List (Prop × Reason) :=
  [(s.sweeping = false, .init), (∃ n, s.acq.state = .pre n ∨ s.acq.state = .waittrig n, .notArmed),
    (s.acq.cfg.mask.host = true, .masked)]

/-- KIND as a number (spec 11 §11.4): MOVE 1, FILL 2, SRCH 3, RDUC 4, XRD 5, XWR 6. -/
def Staged.kindNumber (c : Staged) : Nat := field c.ctl 0 4

/-- The coordinates the kind uses: SRC for MOVE, SRCH, RDUC and XRD, DST for MOVE, FILL and XWR (R91, R104). -/
def Staged.usedCoords (c : Staged) : List Coord :=
  (if c.kindNumber ∈ [1, 3, 4, 5] then [c.source] else []) ++ (if c.kindNumber ∈ [1, 2, 6] then [c.dest] else [])

/-- The command references record `n` (R91). -/
def Staged.references (c : Staged) (n : Fin 8) : Prop := ∃ q ∈ c.usedCoords, q.relative = true ∧ q.record = n

/-- R103: KIND names a kind; for MOVE, OP names an operation; for SRCH, the condition names a condition. -/
def Staged.named (c : Staged) : Prop :=
  (1 ≤ c.kindNumber ∧ c.kindNumber ≤ 6) ∧ (c.kindNumber = 1 → 1 ≤ field c.ctl 4 4 ∧ field c.ctl 4 4 ≤ 6) ∧
    (c.kindNumber = 3 → 1 ≤ field c.param 13 3)

/-- R104: every rectangle the kind uses lies within its bounds. -/
def Staged.inBounds (c : Staged) (rtb : RecordTable) : Prop :=
  (1 ≤ c.w ∧ c.w ≤ 16 ∧ 1 ≤ c.h ∧ c.h ≤ 2048) ∧ (c.kindNumber = 3 → c.w = 1) ∧
    ∀ q ∈ c.usedCoords,
      q.col + c.w ≤ 16 ∧ (q.relative = false → q.line + c.h ≤ 2048) ∧
        (q.relative = true → rtb.recs[q.record].state = .sealed → q.line + c.h ≤ rtb.recs[q.record].length)

/-- The conditions of SUBMIT in order (R102). -/
def submitChecks (s : State) : List (Prop × Reason) :=
  [(s.sweeping = false, .init), (s.cq.staging.named, .badKind), (s.cq.staging.inBounds s.rtb, .badRect),
    (∀ q ∈ s.cq.staging.usedCoords, q.relative = true → s.rtb.recs[q.record].state = .sealed, .badRecord),
    (s.cq.staging.kindNumber = 3 ∧ field s.cq.staging.param 13 3 ≤ 4 → s.cq.staging.threshold ≤ 4095, .badParam),
    (1 ≤ s.cq.tickets, .full)]

/-- The conditions of ABORT in order (R139). -/
def abortChecks (s : State) : List (Prop × Reason) := [(s.sweeping = false, .init), (s.ble ≠ .idle, .nothing)]

/-- The conditions of FLUSH in order (R115). -/
def flushChecks (s : State) : List (Prop × Reason) := [(s.sweeping = false, .init), (s.cq.queue ≠ [], .empty)]

/-- The conditions of POP in order (R114). -/
def popChecks (s : State) : List (Prop × Reason) :=
  [(s.sweeping = false, .init), (∃ e rest, s.rq = .posted e :: rest, .empty)]

/-- The conditions of RLS n in order (R93). -/
def rlsChecks (n : BitVec 12) (s : State) : List (Prop × Reason) :=
  [(s.sweeping = false, .init), (n.toNat < 8, .badRecord),
    (∀ m : Fin 8, m.val = n.toNat → s.rtb.recs[m].state ≠ .free, .notSealed),
    (∀ m : Fin 8, m.val = n.toNat → s.rtb.recs[m].state ≠ .opened, .isOpen),
    (∀ m : Fin 8, m.val = n.toNat → s.rtb.recs[m].pins = 0, .pinned)]

/-- Each record a command references loses one pin (R92). -/
def PinsReleased (c : Staged) (s t : State) : Prop :=
  t.rtb.order = s.rtb.order ∧
    ∀ n : Fin 8,
      t.rtb.recs[n] = { s.rtb.recs[n] with pins := s.rtb.recs[n].pins - (if n ∈ c.refs then 1 else 0) }

/-- The running command is answered (R110, R112, R124): the first pending place becomes the posted entry where it
stands, the pins are released, and the engine is IDLE. -/
def Answered (s t : State) (c : Staged) (st : Status) (progress : Nat) (d : Detail) : Prop :=
  t.ble = .idle ∧ PinsReleased c s t ∧
    ∃ before after, .pending ∉ before ∧ s.rq = before ++ .pending :: after ∧
      t.rq = before ++ .posted ⟨c.tagBits, c.kindBits, st, progress, d⟩ :: after

/-- XF emptied, the timeout stopped, the last returned word kept (R155). -/
def XfEmptied (s t : State) : Prop := t.xf = ⟨[], s.xf.last, none⟩

/-- The store port is free for the engine: no reset, no sweep, and no row commit waits (R12, R13, R174). -/
def PortFree (s : State) : Prop := s.held = false ∧ s.sweeping = false ∧ ∀ row, s.cnv.scan ≠ .presented row

/-- The port serves the access of the running command that is next: no reset, no sweep, and no row commit waits unless
that access was in progress when it came (R12, R13, R43, R174). -/
def PortServes (s : State) (r : Running) : Prop :=
  s.held = false ∧ s.sweeping = false ∧ (r.busy = true ∨ ∀ row, s.cnv.scan ≠ .presented row)

/-- The port begins to serve a row commit that waits: no reset, no sweep, and no engine access in progress (R12, R13,
R174). -/
def CommitServed (s : State) : Prop := s.held = false ∧ s.sweeping = false ∧ ∀ r, s.ble = .run r → r.busy = false

/-- An element of MOVE, FILL, SRCH or RDUC is complete: `r` is the running command after it and `answer` the command's
own answer at it, if any. A marked command is answered ABORTED (R140); nothing besides the sheet changes. -/
def ElementDone (s t : State) (r : Running) (answer : Option (Status × Detail)) : Prop :=
  KeptBut [.sst, .ble, .rq, .rtb, .xf] s t ∧
    if r.aborting then Answered s t r.cmd .aborted r.progress .none ∧ XfEmptied s t
    else
      t.xf = s.xf ∧
        match answer with
        | some (st, d) => Answered s t r.cmd st r.progress d
        | none => t.ble = .run r ∧ t.rq = s.rq ∧ t.rtb = s.rtb

/-- R127, R128, R129: the word `w` that a MOVE with this OP writes from the source word `a` and the destination word
`b`. -/
def Combined (op : MoveOp) (a b w : Word) : Prop :=
  (op = .copy → w = a) ∧ (op ≠ .copy → isVoid a = true → w = 0x8000#16) ∧
    (op ≠ .copy → isVoid a = false → isVoid b = true → w = a) ∧
    (op ≠ .copy → isVoid a = false → isVoid b = false →
      isVoid w = false ∧ isOver w = (isOver a || isOver b) ∧ isUnder w = (isUnder a || isUnder b) ∧
        isMark w = (isMark a || isMark b) ∧
        codeOf w =
          match op with
          | .copy => codeOf a
          | .adds => min (codeOf a + codeOf b) 4095
          | .subs => codeOf b - codeOf a
          | .min => min (codeOf a) (codeOf b)
          | .max => max (codeOf a) (codeOf b)
          | .mean => (codeOf a + codeOf b) / 2)

/-- R32, R36, R37, R39, R41: `w` is the word of a slot that has ended: CODE is the floor of the sum of its AVERAGE
conversions over AVERAGE, those taken and the rest of `codes`, 0 each for ZERO; UNDER and OVER by the limits, when they
are ON; VOID and MARK clear. -/
def ConvertedWord (slot : Slot) (c : Converting) (codes : Vector Code 8) (w : Word) : Prop :=
  codeOf w =
      (c.sum +
        (((codes.toList.take slot.average.num).drop c.taken).map fun code =>
          if slot.source = .zero then 0 else code.toNat).sum) / slot.average.num ∧
    isUnder w = (slot.limits && decide (codeOf w < slot.low.toNat)) ∧
    isOver w = (slot.limits && decide (slot.high.toNat < codeOf w)) ∧ isVoid w = false ∧ isMark w = false

/-- The row of the command table that is an element of MOVE with this OP. -/
def moveInstr : MoveOp → Instr
  | .copy => .moveCopy
  | .adds => .moveAdds
  | .subs => .moveSubs
  | .min => .moveMin
  | .max => .moveMax
  | .mean => .moveMean

/-- The row of the command table that is an element of SRCH with this condition. -/
def srchInstr : Cond → Instr
  | .above => .srchAbove
  | .below => .srchBelow
  | .rise => .srchRise
  | .fall => .srchFall
  | .flagged => .srchFlagged
  | .marked => .srchMarked
  | .voided => .srchVoided

/-- A command that is an element of a running block command (R122). -/
def isElement : Instr → Bool
  | .moveCopy => true
  | .moveAdds => true
  | .moveSubs => true
  | .moveMin => true
  | .moveMax => true
  | .moveMean => true
  | .fill => true
  | .srchAbove => true
  | .srchBelow => true
  | .srchRise => true
  | .srchFall => true
  | .srchFlagged => true
  | .srchMarked => true
  | .srchVoided => true
  | .rduc => true
  | .xrd => true
  | .xwr => true
  | _ => false

/-- A command that can write the sheet (R1): the resets and the end of the sweep, the row commit, and the elements of
MOVE, FILL and XWR. A soft reset completes a write in progress (R16). -/
def mayStore : Instr → Bool
  | .powerOnReset _ _ _ => true
  | .initSweepEnd => true
  | .srst => true
  | .rowCommit => true
  | .moveCopy => true
  | .moveAdds => true
  | .moveSubs => true
  | .moveMin => true
  | .moveMax => true
  | .moveMean => true
  | .fill => true
  | .xwr => true
  | _ => false

/-- A command that is a write of REQ (R170). -/
def isRequest : Instr → Bool
  | .srst => true
  | .arm => true
  | .stop => true
  | .trig => true
  | .submit => true
  | .abort => true
  | .flush => true
  | .pop => true
  | .rls _ => true
  | .badCodeRequest _ => true
  | _ => false

/-- The same command `n` times, one after another. -/
def execTimes (c : Instr) : Nat → State → Out
  | 0, s => .next s
  | n + 1, s =>
    match exec c s with
    | .next t => execTimes c n t
    | out => out

/-- R54: the writer row lies inside a SEALED arc, by the membership rule of R8 with its non-negative remainder. -/
def WriterBlocked (s : State) : Prop :=
  ∃ n : Fin 8, s.rtb.recs[n].state = .sealed ∧
    ((s.acq.writer : Int) - s.rtb.recs[n].start) % s.acq.cfg.ringLength < s.rtb.recs[n].length

/-- The access of the running command that the port is serving is a destination write, of the word `w`: PARAM for FILL,
the head word of XF for XWR, for MOVE the word made of those it has read (R16, R122, R126, R143). -/
def WriteInService (s : State) (r : Running) (w : Word) : Prop :=
  s.ble = .run r ∧ r.busy = true ∧
    ((r.cmd.kindNumber = 2 ∧ w = r.cmd.param) ∨ (r.cmd.kindNumber = 6 ∧ ∃ rest, s.xf.words = w :: rest) ∨
      (r.cmd.kindNumber = 1 ∧ r.cmd.op = some .copy ∧ ∃ rest, r.reads = w :: rest) ∨
      (r.cmd.kindNumber = 1 ∧
        ∃ op a b rest, r.cmd.op = some op ∧ op ≠ .copy ∧ r.reads = a :: b :: rest ∧ w = combine op a b))

/-- R146, R147: the condition of XFER_READY: an XRD runs and XF holds a word, or an XWR runs and XF holds fewer words
than its capacity. -/
def XferCondition (s : State) : Prop :=
  ∃ r, (s.ble = .run r ∨ s.ble = .xwait r) ∧
    ((r.cmd.kindNumber = 5 ∧ s.xf.words ≠ []) ∨
      (r.cmd.kindNumber = 6 ∧ s.xf.words.length < min 4 (r.cmd.w * r.cmd.h - r.progress)))

/-- A row of the sheet is replaced by a commit (R3): the active columns hold the row's words, with MARK on a trigger
row, the others the VOID word. -/
def RowWritten (s t : State) (row : List Word) (trigger : Bool) : Prop :=
  t.sst.sweepPos = s.sst.sweepPos ∧
    ∀ i j, i < Config.sheetRows → j < Config.sheetCols →
      Sheet.read t.sst.cells (Config.sheetCols * i + j) =
        if i = s.acq.writer then
          if h : j < row.length then (if trigger then setMark row[j] else row[j]) else voidWord
        else Sheet.read s.sst.cells (Config.sheetCols * i + j)

/-- A TDATA write that its table accepts (R168). -/
def TdataAccepts (s : State) (v : Word) : Prop :=
  match s.hpi.table, s.hpi.index with
  | .scan, i =>
    s.acq.state = .idle ∧
      match i % 4 with
      | 0 => field v 0 4 ≤ 13 ∧ field v 4 2 ≤ 2
      | 1 => field v 8 4 ∈ [1, 2, 4, 8]
      | _ => v.toNat ≤ 4095
  | .acq, 11 => True
  | .acq, 13 => True
  | .acq, 0 =>
    s.acq.state = .idle ∧ (∀ n : Fin 8, s.rtb.recs[n].state = .free) ∧ v.toNat ≤ 2047 ∧
      v.toNat + s.acq.cfg.ringLength ≤ 2048
  | .acq, 1 =>
    s.acq.state = .idle ∧ (∀ n : Fin 8, s.rtb.recs[n].state = .free) ∧ 16 ≤ v.toNat ∧ v.toNat ≤ 2048 ∧
      s.acq.cfg.ringBase + v.toNat ≤ 2048
  | .acq, 2 => s.acq.state = .idle ∧ v.toNat ≤ 2047
  | .acq, 3 => s.acq.state = .idle ∧ v.toNat ≤ 2047
  | .acq, 4 => s.acq.state = .idle ∧ v.toNat ≤ 16
  | .acq, 5 => s.acq.state = .idle
  | .acq, 6 => s.acq.state = .idle ∧ field v 4 2 ≠ 0
  | .acq, 7 => s.acq.state = .idle ∧ v.toNat ≠ 0
  | .acq, 8 => s.acq.state = .idle
  | .acq, 9 => s.acq.state = .idle ∧ field v 0 2 ≠ 3
  | .acq, 10 => s.acq.state = .idle ∧ v.toNat ∈ [1, 4, 16, 64, 256, 1024]
  | .acq, 12 => s.acq.state = .idle ∧ v.toNat ∈ [1, 2, 4, 8]
  | _, _ => False

/-- The bits of a table word that name a field (spec 11 §11.4): the others are ignored on a write and read as 0. -/
def tableMask : TableName → Nat → Word
  | .scan, i =>
    match i % 4 with
    | 0 => 0x007F#16
    | 1 => 0x0FFF#16
    | _ => 0x0FFF#16
  | .acq, 5 => 0x000F#16
  | .acq, 6 => 0x003F#16
  | .acq, 8 => 0x000F#16
  | .acq, 9 => 0x0003#16
  | .acq, 13 => 0x00FF#16
  | _, _ => 0xFFFF#16

/-- The index moves by 1, from the last word to 0, when the auto-increment bit is set (R166). -/
def IndexMoved (s t : State) : Prop :=
  t.hpi =
    { s.hpi with
      index :=
        if s.hpi.autoInc then (if s.hpi.index + 1 = s.hpi.table.size then 0 else s.hpi.index + 1) else s.hpi.index }

end Sys2Proof.Machine
end

