-- ==== Sys2Proof/WellFormed.lean ====
section
/-! DEFINITION. Which terms of `Instr` are the rows they are named after. Two rows are defined by what their operand
is not: BAD_CODE_REQUEST by a code that names no request (R170), WINDOW_WRITE by a window word that has no row of its
own. Every other operand is within its range by its type. -/

namespace Sys2Proof

/-- A request code that names no request: 0 and 10 to 15 (spec 11 §11.4). -/
def BadCode (code : BitVec 4) : Bool := code == 0#4 || decide (10#4 ≤ code)

/-- A window word whose write has no row of its own: STATUS, the staging words, the result window and the unassigned
words (spec 11, quick-reference table). REQ, EVENTS, ENABLES, TPTR, TDATA and XDATA have rows of their own. -/
def PlainOffset (offset : BitVec 5) : Bool :=
  offset == 0x01#5 || decide (0x07#5 ≤ offset)

/-- The check. -/
def Instr.wellFormed : Instr → Bool
  | .powerOnReset _ _ _ => true
  | .initSweepEnd => true
  | .srst => true
  | .arm => true
  | .stop => true
  | .trig => true
  | .submit => true
  | .abort => true
  | .flush => true
  | .pop => true
  | .rls _ => true
  | .badCodeRequest code => BadCode code
  | .timerExpiry => true
  | .scanEdge _ => true
  | .gateChange _ => true
  | .trigEdge _ => true
  | .slotEnd _ => true
  | .rowCommit => true
  | .take => true
  | .moveCopy => true
  | .moveAdds => true
  | .moveSubs => true
  | .moveMin => true
  | .moveMax => true
  | .moveMean => true
  | .fill => true
  | .srchAbove => true
  | .srchBelow => true
  | .srchRise => true
  | .srchFall => true
  | .srchFlagged => true
  | .srchMarked => true
  | .srchVoided => true
  | .rduc => true
  | .xrd => true
  | .xwr => true
  | .xdataRead => true
  | .xdataWrite _ => true
  | .transferTimeout => true
  | .tptrWrite _ => true
  | .tdataRead => true
  | .tdataWrite _ => true
  | .eventsWrite _ => true
  | .enablesWrite _ => true
  | .windowWrite offset _ => PlainOffset offset

end Sys2Proof
end

