-- ==== Sys2Proof/Certificates/Slice0/Obligations.lean ====
section
/-! DEFINITION. The statements for the provers. A docstring names the rules of the spec a statement formalises, and the
log entry of every choice of the model it rests on. -/

open Sys2Proof Sys2Proof.Machine

/-! ## The step and the whole machine -/

/-- A step with a command at the front of the queue is that command on the state with the queue's rest. The queue is the
model's (log 17). -/
def Obligations.StepTakesFrontCommand : Prop :=
  ∀ (c : Instr) (s : State), step { s with pending := c :: s.pending } = exec c s

/-- No command changes what waits behind it. The queue is the model's (log 17). -/
def Obligations.CommandsLeaveTheQueue : Prop :=
  ∀ (c : Instr) (s t : State), exec c s = .next t → t.pending = s.pending

/-- With an empty queue the block goes on by itself (log 3): while RESET is held nothing changes (R174); events that are
due at once are queued and nothing else changes; with none due, one period changes only the sweep position and the words
it clears, the timer, the converter's progress, the mark of an engine access in progress, and the timeout. -/
def Obligations.IdleStepFrame : Prop :=
  ∀ s : State, s.pending = [] →
    (s.held = true → step s = .next s) ∧
      (s.held = false → s.dueNow ≠ [] → step s = .next { s with pending := s.dueNow }) ∧
      (s.held = false → s.dueNow = [] →
        ∃ t, step s = .next t ∧ KeptBut [.sst, .stm, .cnv, .ble, .xf, .conversions, .pending] s t ∧
          t.cnv.slots = s.cnv.slots ∧ t.xf.words = s.xf.words ∧ t.xf.last = s.xf.last ∧
          (s.sweeping = false → t.sst = s.sst) ∧
          (∀ a, SheetSound s → (s.sweeping = false ∨ a ≠ s.sst.sweepPos) → Sheet.read t.sst.cells a = Sheet.read s.sst.cells a) ∧
          (∀ r, s.ble = .run r → s.sweeping = false → t.ble = .run { r with busy := true }) ∧
          (s.sweeping = true ∨ (∀ r, s.ble ≠ .run r) → t.ble = s.ble))

/-- R13, R21, R22, R35, R36, R151 and R153 over one part-clock period. The sweep writes the VOID word at its position
and moves by 1, and its end falls due with the last word. A running transfer timeout counts down by 1 and falls due at
its end. The prescaler of the running timer counts; a prescaled tick decrements the counter when it counts, is lost while
the gate is inactive, and falls due as an expiry when the counter is at 1; in EXTERNAL mode nothing counts. The k-th
conversion of a slot ends (SETTLE + 14 k) × divider periods after the slot began, and the slot's end falls due with its
AVERAGE-th conversion. That a period is a step on an empty queue is the model's choice (log 3), the converted code a free
value (log 8). -/
def Obligations.PeriodRunsTimerAndConverter : Prop :=
  ∀ s : State, s.pending = [] → s.held = false → s.dueNow = [] →
    ∃ t, step s = .next t ∧
      (s.sweeping = true → SheetSound s →
        (s.sst.sweepPos + 1 < 32768 →
            t.sst.sweepPos = s.sst.sweepPos + 1 ∧ Instr.initSweepEnd ∉ t.pending ∧
              ∀ a, Sheet.read t.sst.cells a = if a = s.sst.sweepPos then 0x8000#16 else Sheet.read s.sst.cells a) ∧
          (s.sst.sweepPos + 1 = 32768 → t.sst = s.sst ∧ Instr.initSweepEnd ∈ t.pending)) ∧
      (∀ k, s.xf.timeout = some k →
        (1 < k → t.xf.timeout = some (k - 1) ∧ Instr.transferTimeout ∉ t.pending) ∧
          (k ≤ 1 → Instr.transferTimeout ∈ t.pending)) ∧
      (s.xf.timeout = none → t.xf.timeout = none ∧ Instr.transferTimeout ∉ t.pending) ∧
      (s.timerRunning = true → TimerSound s →
        let due := Instr.timerExpiry ∈ t.pending
        let counts := s.acq.cfg.timerMode = .continuous ∨ (s.acq.cfg.timerMode = .gated ∧ s.gateActive = true)
        if s.acq.cfg.timerMode = .external then t.stm = s.stm ∧ ¬due
        else if s.stm.prescale + 1 < s.acq.cfg.prescaler.num then
          t.stm = { s.stm with prescale := s.stm.prescale + 1 } ∧ ¬due
        else
          t.stm.prescale = 0 ∧ t.stm.active = s.stm.active ∧ t.stm.gate = s.stm.gate ∧ t.stm.scan = s.stm.scan ∧
            (counts → 1 < s.stm.counter → t.stm.counter = s.stm.counter - 1 ∧ ¬due) ∧
            (counts → s.stm.counter = 1 → due) ∧ (¬counts → t.stm.counter = s.stm.counter ∧ ¬due)) ∧
      ∀ (c : Converting) (i : Fin 16), s.cnv.scan = .converting c → c.buffer.length = i.val →
        c.taken < s.cnv.slots[i].average.num →
        let ends := (s.cnv.slots[i].settle.toNat + 14 * (c.taken + 1)) * s.acq.cfg.divider.num
        let due := ∃ codes, Instr.slotEnd codes ∈ t.pending
        (c.clock + 1 < ends → t.cnv.scan = .converting { c with clock := c.clock + 1 } ∧ ¬due) ∧
          (ends ≤ c.clock + 1 → c.taken + 1 < s.cnv.slots[i].average.num →
            ¬due ∧ ∃ code : Code, t.cnv.scan =
              .converting
                { c with
                  clock := c.clock + 1
                  taken := c.taken + 1
                  sum := c.sum + if s.cnv.slots[i].source = .zero then 0 else code.toNat }) ∧
          (ends ≤ c.clock + 1 → c.taken + 1 = s.cnv.slots[i].average.num → t.cnv = s.cnv ∧ due)

/-- Every invariant stated below holds right after reset. State.reset holds the values of log 1, 2, 11 and 12 where the
spec gives none; no clause rests on one of them. -/
def Obligations.ResetIsSound : Prop :=
  SheetSound State.reset ∧ SweepSound State.reset ∧ RingSound State.reset ∧ RangesSound State.reset ∧
    TicketsSound State.reset ∧ RecordsSound State.reset ∧ ScanSound State.reset ∧ TimerSound State.reset ∧
    TransferSound State.reset ∧ PinsSound State.reset ∧ ShapesSound State.reset ∧ ArcsSound State.reset ∧
    RingKeptClear State.reset ∧ LatchesSound State.reset

/-- From a state with a legal ring (R7), a legal record table (R82, R90), commands within their bounds (R104) and a
legal transfer FIFO (R144), every step goes on, and to such a state: no access leaves the sheet (R1). -/
def Obligations.SoundStoreNeverFaults : Prop := ∀ s : State, StoreSound s → ∃ t, step s = .next t ∧ StoreSound t

/-- R13, R14: every step keeps the sweep in its range, and keeps ACQ and the engine idle, the queues empty and the
descriptors FREE while the sweep runs. It also keeps the sheet in the canonical form in which the model lists the words
of R1: addresses strictly rising, no VOID word listed; that form is the model's own (log 10). -/
def Obligations.SheetAndSweepKept : Prop :=
  ∀ s t : State, step s = .next t → (SheetSound s → SheetSound t) ∧ (SweepSound s → SweepSound t)

/-- R7, R53, R48, R65, R75, R166: every step keeps the ring geometry legal with the writer row in it, and keeps the
table words, the index and the saturating counters in their ranges. -/
def Obligations.RingAndRangesKept : Prop :=
  ∀ s t : State, step s = .next t → (RingSound s → RingSound t) ∧ (RangesSound s → RangesSound t)

/-- R108, R110, R126, R137, R140, R141, R144 to R146, R151: every step keeps the eight tickets accounted for with one
pending place exactly while a command runs, and keeps the transfer FIFO, the timeout, the element in progress and the
engine state in their relation. -/
def Obligations.TicketsAndTransferKept : Prop :=
  ∀ s t : State, step s = .next t → (TicketsSound s → TicketsSound t) ∧ (TransferSound s → TransferSound t)

/-- R47, R82, R83, R90, R91, R92, R97: every step keeps the record table and the sealing order in agreement with the ACQ
state, and the pin counts equal to the commands that hold them, each command within the bounds it was accepted with and
each referenced record SEALED. -/
def Obligations.RecordsAndPinsKept : Prop :=
  ∀ s t : State, RecordsSound s → step s = .next t → RecordsSound t ∧ (PinsSound s → PinsSound t)

/-- R8, R54, R57, R83, R86, R88: every step keeps the arcs of the held records apart, the open arc ending just before
the writer row, a waiting commit outside every sealed arc, and each record's LENGTH, PRE and POST in their relation. -/
def Obligations.CaptureKept : Prop :=
  ∀ s t : State, RingSound s → RecordsSound s → ScanSound s → ShapesSound s → ArcsSound s → step s = .next t →
    ShapesSound t ∧ ArcsSound t

/-- R19, R20, R21, R25, R29, R36, R37, R70, R75, R79: every step keeps a scan in progress only while the timer runs, the
conversions of its slot short of AVERAGE and their sum one of codes 0 to 4095, the timer's periods and counter in their
relation, the latches clear outside PRE and WAITTRIG and for sources that are not enabled, and the COUNT counter 0 in
PRE. -/
def Obligations.ScanTimerAndLatchesKept : Prop :=
  ∀ s t : State, step s = .next t →
    (ScanSound s → ScanSound t) ∧ (TimerSound s → TimerSound t) ∧ (LatchesSound s → LatchesSound t)

/-- R51, R121: no step leads to a command on the ring that runs while ACQ is not IDLE. -/
def Obligations.RingKeptClearOfCommands : Prop :=
  ∀ s t : State, RingKeptClear s → step s = .next t → RingKeptClear t

/-- R158, R159: a sticky flag that is set stays set through every command but a write of EVENTS and the two resets. -/
def Obligations.StickyFlagsStay : Prop :=
  ∀ (c : Instr) (s t : State), c.wellFormed = true → (∀ w, c ≠ .eventsWrite w) → c ≠ .srst →
    (∀ h g e, c ≠ .powerOnReset h g e) → exec c s = .next t →
    (s.evu.sticky.sealed = true → t.evu.sticky.sealed = true) ∧
      (s.evu.sticky.acqdone = true → t.evu.sticky.acqdone = true) ∧
      (s.evu.sticky.starved = true → t.evu.sticky.starved = true) ∧
      (s.evu.sticky.trigger = true → t.evu.sticky.trigger = true) ∧
      (s.evu.sticky.late = true → t.evu.sticky.late = true) ∧
      (s.evu.sticky.blocked = true → t.evu.sticky.blocked = true) ∧
      (s.evu.sticky.xunder = true → t.evu.sticky.xunder = true) ∧
      (s.evu.sticky.xover = true → t.evu.sticky.xover = true) ∧
      (s.evu.sticky.access = true → t.evu.sticky.access = true) ∧
      (s.evu.sticky.refused = true → t.evu.sticky.refused = true) ∧
      (s.evu.sticky.init = true → t.evu.sticky.init = true)

/-- R84, R89, R97: a SEALED record's fields other than PINS stay as they are through every command but RLS and a
power-on reset. -/
def Obligations.SealedRecordsStay : Prop :=
  ∀ (c : Instr) (n : Fin 8) (s t : State), RecordsSound s → c.wellFormed = true → (∀ m, c ≠ .rls m) →
    (∀ h g e, c ≠ .powerOnReset h g e) → exec c s = .next t → s.rtb.recs[n].state = .sealed →
    { t.rtb.recs[n] with pins := 0 } = { s.rtb.recs[n] with pins := 0 }

/-- R1: only the store operations change the sheet: row commits, elements of MOVE, FILL and XWR, and the sweep with the
resets around it. -/
def Obligations.OnlyStoresChangeTheSheet : Prop :=
  ∀ (c : Instr) (s t : State), c.wellFormed = true → mayStore c = false → exec c s = .next t → t.sst = s.sst

/-- R30, R47, R49, R53, R65: outside IDLE no command but a power-on reset changes the SCAN table or an ACQ table word other
than the timer period and the transfer timeout. IDLE is left only by ARM. The writer row moves only at a row commit, a
write of TDATA or a power-on reset, and the committed-row counter only at a row commit or a reset. -/
def Obligations.ConfigurationMovesOnlyBy : Prop :=
  ∀ (c : Instr) (s t : State), c.wellFormed = true → (∀ h g e, c ≠ .powerOnReset h g e) → exec c s = .next t →
    (s.acq.state ≠ .idle →
        t.cnv.slots = s.cnv.slots ∧
          { t.acq.cfg with period := s.acq.cfg.period, timeout := s.acq.cfg.timeout } = s.acq.cfg) ∧
      (s.acq.state = .idle → c ≠ .arm → t.acq.state = .idle) ∧
      (c ≠ .rowCommit → (∀ w, c ≠ .tdataWrite w) → t.acq.writer = s.acq.writer) ∧
      (c ≠ .rowCommit → c ≠ .srst → t.acq.committed = s.acq.committed)

/-! ## Resets and the sweep -/

/-- R16, R24, R28, R31, R48, R68, R81, R99, R118, R143, R156, R163, R169, R171, R174: what the host and the lines show
after a power-on reset that has ended. The sweep has every word before it. The line samples are operands (log 1);
waiting commands stay (log 16). While a power-on reset lasts, from the same values, no command but another power-on
reset has an effect, a read returns 0, the interrupt line is released, and time changes nothing. -/
def Obligations.PowerOnResetValues : Prop :=
  (∀ (g x l : Bool) (s : State), ∃ t, exec (.powerOnReset false g ⟨x, l⟩) s = .next t ∧ t.held = false ∧
    t.sst.sweepPos = 0 ∧ t.sweeping = true ∧ t.acq.state = .idle ∧ t.ble = .idle ∧ t.cnv.scan = .free ∧
    t.cq.queue = [] ∧ t.rq = [] ∧ t.xf = ⟨[], voidWord, none⟩ ∧ t.rtb.order = [] ∧ t.irq = false ∧
    t.stm.active = 65536 ∧ t.stm.gate = g ∧ t.stm.scan = x ∧ t.tru = ⟨false, false, false, 0, l⟩ ∧
    (∀ n : Fin 8, t.rtb.recs[n] = Descriptor.free) ∧
    (∀ n : Fin 16, t.cnv.slots[n] = ⟨.ain 0, .supply, false, 0#8, .one, 0#12, 0xFFF#12⟩) ∧
    (List.range 16).map t.acq.cfg.word =
      [0#16, 1024#16, 0#16, 0#16, 1#16, 1#16, 16#16, 1#16, 0#16, 0#16, 1#16, 0#16, 1#16, 0#16, 0#16, 0#16] ∧
    (List.range 8).map t.countWord = [0#16, 0#16, 0#16, 0#16, 15#16, 15#16, 8#16, 0#16] ∧
    (List.range 8).map t.cq.staging.word = List.replicate 8 0#16 ∧
    t.outcomeWord = 0#16 ∧ t.tptrWord = 0#16 ∧ t.eventsWord = 2#16 ∧ t.evu.enables = 0#14 ∧ t.statusWord = 24#16 ∧
    t.pending = s.pending ∧
    exec (.powerOnReset true g ⟨x, l⟩) s = .next { t with held := true }) ∧
  ∀ s : State, s.held = true →
    s.irq = false ∧ (∀ o, s.readWindow o = 0#16) ∧ (s.pending = [] → step s = .next s) ∧
      (∀ c ∈ [Instr.xdataRead, .tdataRead], exec c s = .next { s with busData := 0#16 }) ∧
      ∀ c, (∀ h g e, c ≠ .powerOnReset h g e) → c ≠ .xdataRead → c ≠ .tdataRead → exec c s = .next s

/-- R13: at the end of the sweep every word is the VOID word, INIT busy clears, the init sweep row reads 2048 and INIT
is set; with no sweep running the event does not occur (log 6). -/
def Obligations.SweepEndClearsTheSheet : Prop :=
  ∀ s : State,
    (s.held = false → s.sweeping = true →
      ∃ t, exec .initSweepEnd s = .next t ∧ (∀ a, t.wordAt a = voidWord) ∧ t.sweeping = false ∧
        t.countWord 7 = 2048#16 ∧ t.evu = { s.evu with sticky := { s.evu.sticky with init := true } } ∧
        KeptBut [.sst, .evu] s t) ∧
      (s.sweeping = false → exec .initSweepEnd s = .next s)

/-- R172, and the rules it names: the values after a soft reset, in every state. The open record is freed in PRE and
WAITTRIG and sealed TRUNCATED in POST; the tables, the writer row, the staging words, the SEALED records, the sweep and
the sheet are kept, but for a destination write of MOVE, FILL or XWR that the port is serving, which completes (R16,
R143; when the port is serving an access is log 4 and 13). -/
def Obligations.SoftResetValues : Prop :=
  ∀ s : State, s.held = false → RecordsSound s → SheetSound s →
    ∃ t, exec .srst s = .next t ∧
      t.acq = { s.acq with state := .idle, committed := 0#32, holding := 0#16, dropped := 0 } ∧
      t.cnv = { s.cnv with scan := .free } ∧ t.stm = { s.stm with active := periodTicks s.acq.cfg.period } ∧
      t.tru = ⟨false, false, false, 0, s.tru.sample⟩ ∧
      (∀ n : Fin 8, t.rtb.recs[n] =
        if s.acq.state = .pre n ∨ s.acq.state = .waittrig n then Descriptor.free
        else if s.acq.state = .post n then { s.rtb.recs[n] with state := .sealed, truncated := true, pins := 0 }
        else { s.rtb.recs[n] with pins := 0 }) ∧
      t.rtb.order = (match s.acq.state with | .post n => s.rtb.order ++ [n] | _ => s.rtb.order) ∧
      t.cq = ⟨s.cq.staging, [], 8⟩ ∧ t.rq = [] ∧ t.ble = .idle ∧ t.xf = ⟨[], voidWord, none⟩ ∧
      t.evu = ⟨Sticky.clear, 0#14⟩ ∧ t.hpi = ⟨.scan, 0, false, 1#4, .accepted⟩ ∧
      t.held = false ∧ t.busData = s.busData ∧ t.pending = s.pending ∧ t.sst.sweepPos = s.sst.sweepPos ∧
      ((∀ r w, ¬WriteInService s r w) → t.sst = s.sst) ∧
      (∀ r w a, WriteInService s r w → r.cmd.elementAddr r.cmd.dest s.acq.cfg s.rtb r.progress = some a →
        Stored s t a w)

/-- R14, R170: while the sweep runs every request other than SRST is refused with INIT; after it a code that names no
request is refused with BAD_CODE. The code is echoed as written. -/
def Obligations.InitAndBadCodeRefusals : Prop :=
  ∀ (s : State) (n : BitVec 12) (code : BitVec 4), s.held = false → BadCode code = true →
    (s.sweeping = true →
      ∀ p ∈ [(Instr.arm, 2#4), (.stop, 3#4), (.trig, 4#4), (.submit, 5#4), (.abort, 6#4), (.flush, 7#4), (.pop, 8#4),
          (.rls n, 9#4), (.badCodeRequest code, code)],
        ∃ t, exec p.1 s = .next t ∧ RefusedWith p.2 .init s t) ∧
      (s.sweeping = false → ∃ t, exec (.badCodeRequest code) s = .next t ∧ RefusedWith code .badCode s t)

/-! ## Requests to ACQ and TRU -/

/-- R50, R52, R20, R80, R85: ARM is refused with the reason of the first condition that fails, and nothing else changes;
accepted, it makes the lowest-numbered FREE descriptor the open record at the writer row, resets TRU, starts the timer
with a full interval, and enters PRE, or WAITTRIG when the pre count is 0. -/
def Obligations.ArmDecided : Prop :=
  ∀ s : State, s.held = false →
    (∀ r, FirstFailure (armChecks s) r → ∃ t, exec .arm s = .next t ∧ RefusedWith 2#4 r s t) ∧
      ∀ n : Fin 8, AllHold (armChecks s) → s.rtb.recs[n].state = .free → (∀ m < n, s.rtb.recs[m].state ≠ .free) →
        ∃ t, exec .arm s = .next t ∧
          t.acq = { s.acq with state := if s.acq.cfg.preCount = 0 then .waittrig n else .pre n } ∧
          t.rtb.order = s.rtb.order ∧
          (∀ m : Fin 8, t.rtb.recs[m] =
            if m = n then
              ⟨.opened, s.acq.writer, 0, 0, 0, s.acq.cfg.listLength, 0#32, Sources.none, false, false, false, 0⟩
            else s.rtb.recs[m]) ∧
          t.tru = ⟨false, false, false, 0, s.tru.sample⟩ ∧
          t.stm = { s.stm with counter := s.stm.active, prescale := 0 } ∧ AcceptedAs 2#4 s t ∧
          KeptBut [.acq, .rtb, .tru, .stm, .hpi] s t

/-- R44, R66, R81, R98: STOP is refused in IDLE; accepted, it ends in IDLE, abandons the scan, clears the latches, stops
the timer, and frees the open record in PRE and WAITTRIG, seals it TRUNCATED in POST, and finds none in STARVED. -/
def Obligations.StopDecided : Prop :=
  ∀ s : State, s.held = false →
    (∀ r, FirstFailure (stopChecks s) r → ∃ t, exec .stop s = .next t ∧ RefusedWith 3#4 r s t) ∧
      (AllHold (stopChecks s) → RecordsSound s →
        ∃ t, exec .stop s = .next t ∧ t.acq = { s.acq with state := .idle } ∧ t.cnv = { s.cnv with scan := .free } ∧
          t.stm = { s.stm with active := periodTicks s.acq.cfg.period } ∧
          t.tru = { s.tru with host := false, line := false } ∧
          (∀ n : Fin 8, t.rtb.recs[n] =
            if s.acq.state = .pre n ∨ s.acq.state = .waittrig n then Descriptor.free
            else if s.acq.state = .post n then { s.rtb.recs[n] with state := .sealed, truncated := true }
            else s.rtb.recs[n]) ∧
          t.rtb.order = (match s.acq.state with | .post n => s.rtb.order ++ [n] | _ => s.rtb.order) ∧
          t.evu =
            (match s.acq.state with
              | .post _ => { s.evu with sticky := { s.evu.sticky with sealed := true } }
              | _ => s.evu) ∧
          AcceptedAs 3#4 s t ∧ KeptBut [.acq, .cnv, .stm, .tru, .rtb, .evu, .hpi] s t)

/-- R71: TRIG is refused with the reason of the first condition that fails; accepted, it sets the HOST latch, set or
not, and takes no trigger itself. -/
def Obligations.TrigDecided : Prop :=
  ∀ s : State, s.held = false →
    (∀ r, FirstFailure (trigChecks s) r → ∃ t, exec .trig s = .next t ∧ RefusedWith 4#4 r s t) ∧
      (AllHold (trigChecks s) →
        ∃ t, exec .trig s = .next t ∧ t.tru = { s.tru with host := true } ∧ AcceptedAs 4#4 s t ∧
          KeptBut [.tru, .hpi] s t)

/-! ## Requests to CQ, RQ, BLE and RTB -/

/-- R102 to R107, R91: SUBMIT is refused with the reason of the first condition that fails, and nothing else changes;
with every condition true it is accepted: the staging words are copied to the tail of the command queue and stay, a
ticket is taken, and each record the command references gains one pin. -/
def Obligations.SubmitDecided : Prop :=
  ∀ s : State, s.held = false →
    (∀ r, FirstFailure (submitChecks s) r → ∃ t, exec .submit s = .next t ∧ RefusedWith 5#4 r s t) ∧
      (AllHold (submitChecks s) →
        ∃ t, exec .submit s = .next t ∧
          t.cq = ⟨s.cq.staging, s.cq.queue ++ [s.cq.staging], s.cq.tickets - 1⟩ ∧ t.rtb.order = s.rtb.order ∧
          (∀ n : Fin 8,
            (s.cq.staging.references n → t.rtb.recs[n] = { s.rtb.recs[n] with pins := s.rtb.recs[n].pins + 1 }) ∧
              (¬s.cq.staging.references n → t.rtb.recs[n] = s.rtb.recs[n])) ∧
          AcceptedAs 5#4 s t ∧ KeptBut [.cq, .rtb, .hpi] s t)

/-- R139, R140, R141: ABORT is refused with no command running. In XWAIT, or in RUN with no access of the element begun,
it answers ABORTED at once with the count as it stands, empties XF and releases the pins; in RUN with an access of the
element served or being served it marks the command, and a second ABORT has no further effect. When the port is serving
an access is log 4 and 13. -/
def Obligations.AbortDecided : Prop :=
  ∀ s : State, s.held = false →
    (∀ r, FirstFailure (abortChecks s) r → ∃ t, exec .abort s = .next t ∧ RefusedWith 6#4 r s t) ∧
      (s.sweeping = false → ∀ r : Running,
        (s.ble = .xwait r ∨ (s.ble = .run r ∧ r.busy = false ∧ r.reads = [] ∧ r.aborting = false) →
            .pending ∈ s.rq →
            ∃ t, exec .abort s = .next t ∧ Answered s t r.cmd .aborted r.progress .none ∧ XfEmptied s t ∧
              AcceptedAs 6#4 s t ∧ KeptBut [.ble, .rq, .rtb, .xf, .hpi] s t) ∧
          (s.ble = .run r → r.busy = true ∨ r.reads ≠ [] ∨ r.aborting = true →
            ∃ t, exec .abort s = .next t ∧ t.ble = .run { r with aborting := true } ∧ AcceptedAs 6#4 s t ∧
              KeptBut [.ble, .hpi] s t))

/-- R115: FLUSH is refused with an empty command queue; accepted, it answers every queued command FLUSHED in queue
order at the tail of the result queue and releases one pin of a record for each command that references it. -/
def Obligations.FlushDecided : Prop :=
  ∀ s : State, s.held = false →
    (∀ r, FirstFailure (flushChecks s) r → ∃ t, exec .flush s = .next t ∧ RefusedWith 7#4 r s t) ∧
      (AllHold (flushChecks s) →
        ∃ t, exec .flush s = .next t ∧ t.cq = { s.cq with queue := [] } ∧
          t.rq = s.rq ++ s.cq.queue.map (fun c => .posted ⟨c.tagBits, c.kindBits, .flushed, 0, .none⟩) ∧
          t.rtb.order = s.rtb.order ∧
          (∀ n : Fin 8, t.rtb.recs[n] =
            { s.rtb.recs[n] with
              pins := s.rtb.recs[n].pins - s.cq.queue.countP fun c => decide (n ∈ c.refs) }) ∧
          AcceptedAs 7#4 s t ∧ KeptBut [.cq, .rq, .rtb, .hpi] s t)

/-- R114: POP is refused unless the head of the result queue is a posted entry; accepted, it removes that entry and
returns its ticket. -/
def Obligations.PopDecided : Prop :=
  ∀ s : State, s.held = false →
    (∀ r, FirstFailure (popChecks s) r → ∃ t, exec .pop s = .next t ∧ RefusedWith 8#4 r s t) ∧
      (AllHold (popChecks s) →
        ∃ t, exec .pop s = .next t ∧ (∃ e, s.rq = .posted e :: t.rq) ∧
          t.cq = { s.cq with tickets := s.cq.tickets + 1 } ∧ t.ticketFlag = true ∧ AcceptedAs 8#4 s t ∧
          KeptBut [.rq, .cq, .hpi] s t)

/-- R93, R94, R95, R62: RLS n is refused with the reason of the first condition that fails; accepted, the descriptor is
FREE with every field 0 and out of the sealing order; in STARVED it is allocated at once at the writer row, and PRE or
WAITTRIG is entered with the timer reloaded. -/
def Obligations.ReleaseDecided : Prop :=
  ∀ (n : BitVec 12) (s : State), s.held = false →
    (∀ r, FirstFailure (rlsChecks n s) r → ∃ t, exec (.rls n) s = .next t ∧ RefusedWith 9#4 r s t) ∧
      ∀ m : Fin 8, m.val = n.toNat → AllHold (rlsChecks n s) →
        ∃ t, exec (.rls n) s = .next t ∧ t.rtb.order = s.rtb.order.filter (· ≠ m) ∧
          (∀ k : Fin 8, k ≠ m → t.rtb.recs[k] = s.rtb.recs[k]) ∧ AcceptedAs 9#4 s t ∧
          (s.acq.state ≠ .starved → t.rtb.recs[m] = Descriptor.free ∧ KeptBut [.rtb, .hpi] s t) ∧
          (s.acq.state = .starved →
            t.rtb.recs[m] =
                ⟨.opened, s.acq.writer, 0, 0, 0, s.acq.cfg.listLength, 0#32, Sources.none, false, false, false, 0⟩ ∧
              t.acq = { s.acq with state := if s.acq.cfg.preCount = 0 then .waittrig m else .pre m } ∧
              t.tru = { s.tru with flagged := false, count := 0 } ∧
              t.stm = { s.stm with counter := s.stm.active, prescale := 0 } ∧
              KeptBut [.rtb, .hpi, .acq, .tru, .stm] s t)

/-- R171: the outcome word holds the code of the last request written and its outcome: every request leaves its own
code, with ACCEPTED or a refusal reason; SRST leaves SRST with ACCEPTED; a power-on reset leaves code 0 with NONE; no
other command changes it, and a read of REQ shows code and reason. -/
def Obligations.OutcomeWordHoldsLastRequest : Prop :=
  ∀ (c : Instr) (s t : State), s.held = false → c.wellFormed = true → exec c s = .next t →
    (isRequest c = false → (∀ h g e, c ≠ .powerOnReset h g e) →
        t.hpi.code = s.hpi.code ∧ t.hpi.reason = s.hpi.reason) ∧
      (∀ h g e, c = .powerOnReset h g e → t.hpi.code = 0#4 ∧ t.hpi.reason = .none) ∧
      (c = .srst → t.hpi.code = 1#4 ∧ t.hpi.reason = .accepted) ∧
      (isRequest c = true → t.hpi.reason ≠ .none) ∧
      (c = .arm → t.hpi.code = 2#4) ∧ (c = .stop → t.hpi.code = 3#4) ∧ (c = .trig → t.hpi.code = 4#4) ∧
      (c = .submit → t.hpi.code = 5#4) ∧ (c = .abort → t.hpi.code = 6#4) ∧ (c = .flush → t.hpi.code = 7#4) ∧
      (c = .pop → t.hpi.code = 8#4) ∧ (∀ n, c = .rls n → t.hpi.code = 9#4) ∧
      (∀ code, c = .badCodeRequest code →
        t.hpi.code = code ∧ t.hpi.reason = if s.sweeping then .init else .badCode) ∧
      (t.held = false →
        field (t.readWindow 0x00#5) 0 4 = t.hpi.code.toNat ∧ field (t.readWindow 0x00#5) 8 5 = t.hpi.reason.code)

/-! ## Scan events and lines -/

/-- R19, R21, R22, R23, R25, R26, R42: a scan event, from an expiry or a rising SCAN edge, promotes the pending period, and
an expiry reloads the counter with it. With no scan in progress it starts one at slot 0. With one in progress it is a
late scan: the dropped-scan counter counts it, LATE is set, the open record gets GAP, and the scan goes on undisturbed. -/
def Obligations.ScanEvents : Prop :=
  ∀ (s : State) (n : Fin 8), s.held = false → s.acq.state.openRec = some n →
    let outcome := fun t : State =>
      (s.cnv.scan = .free →
          t.cnv = { s.cnv with scan := .converting ⟨[], 0, 0, 0⟩ } ∧ KeptBut [.cnv, .stm] s t) ∧
        (s.cnv.scan ≠ .free →
          t.acq = { s.acq with dropped := if s.acq.dropped < 65535 then s.acq.dropped + 1 else 65535 } ∧
            t.evu = { s.evu with sticky := { s.evu.sticky with late := true } } ∧ t.rtb.order = s.rtb.order ∧
            (∀ m : Fin 8, t.rtb.recs[m] = if m = n then { s.rtb.recs[n] with gap := true } else s.rtb.recs[m]) ∧
            KeptBut [.acq, .evu, .rtb, .stm] s t)
    (s.acq.cfg.timerMode = .continuous ∨ (s.acq.cfg.timerMode = .gated ∧ s.gateActive = true) →
        ∃ t, exec .timerExpiry s = .next t ∧ outcome t ∧
          t.stm =
            { s.stm with
              active := periodTicks s.acq.cfg.period
              counter := periodTicks s.acq.cfg.period
              prescale := 0 }) ∧
      (s.acq.cfg.timerMode = .external → s.stm.scan = false →
        ∃ t, exec (.scanEdge true) s = .next t ∧ outcome t ∧
          t.stm = { s.stm with active := periodTicks s.acq.cfg.period, scan := true })

/-- R22, R23, R24, R72: a new sample of GATE sets the gate state and nothing else. A sample of SCAN that is no rising
edge, or that comes in another mode or with the timer stopped, is only the new sample. An active edge of TRIG, by the
LINE polarity, sets the LINE latch in PRE and WAITTRIG with LINE enabled; any other sample leaves the latch as it stood.
The samples are operands (log 22). An expiry of a timer that does not count does not occur (log 6). -/
def Obligations.LineSamples : Prop :=
  ∀ (level : Bool) (s : State), s.held = false →
    let rising := s.tru.sample = false ∧ level = true
    let falling := s.tru.sample = true ∧ level = false
    let active := if s.acq.cfg.lineFall then falling else rising
    let seen := active ∧ (∃ n, s.acq.state = .pre n ∨ s.acq.state = .waittrig n) ∧ s.acq.cfg.mask.line = true
    exec (.gateChange level) s = .next { s with stm := { s.stm with gate := level } } ∧
      (level = false ∨ s.stm.scan = true ∨ s.acq.cfg.timerMode ≠ .external ∨ s.timerRunning = false →
        exec (.scanEdge level) s = .next { s with stm := { s.stm with scan := level } }) ∧
      (s.timerRunning = false ∨ s.acq.cfg.timerMode = .external ∨
          (s.acq.cfg.timerMode = .gated ∧ s.gateActive = false) →
        exec .timerExpiry s = .next s) ∧
      (seen → exec (.trigEdge level) s = .next { s with tru := { s.tru with sample := level, line := true } }) ∧
      (¬seen → exec (.trigEdge level) s = .next { s with tru := { s.tru with sample := level } })

/-! ## The converter -/

/-- R32, R36, R37, R39, R41, R42: the end of a slot before the last puts the slot's word into the buffer and starts the
next slot: CODE is the floor of the sum of its AVERAGE conversions over AVERAGE, 0 for ZERO; UNDER and OVER by its
limits; VOID and MARK clear. The conversions not yet taken come as an operand (log 8). -/
def Obligations.SlotEndConverts : Prop :=
  ∀ (codes : Vector Code 8) (s : State) (c : Converting) (i : Fin 16), s.held = false →
    s.cnv.scan = .converting c → c.buffer.length = i.val → c.buffer.length + 1 < s.acq.cfg.listLength →
    c.taken ≤ s.cnv.slots[i].average.num → c.sum ≤ 4095 * c.taken →
    ∃ t w, exec (.slotEnd codes) s = .next t ∧
      t.cnv = { s.cnv with scan := .converting ⟨c.buffer ++ [w], 0, 0, 0⟩ } ∧
      ConvertedWord s.cnv.slots[i] c codes w ∧ KeptBut [.cnv] s t

/-- R32, R36, R37, R39, R41, R42, R54, R63: the end of the last slot, the only one when L is 1, presents the row, which
ends in that slot's word: CODE is the floor of the sum of its AVERAGE conversions over AVERAGE, 0 for ZERO; UNDER and
OVER by its limits; VOID and MARK clear. With the writer row in a SEALED arc the row is dropped: the counter counts it,
BLOCKED is set, the open record gets GAP, and the scan ends; else its commit waits at the port. The conversions not yet
taken come as an operand (log 8). -/
def Obligations.SlotEndPresents : Prop :=
  ∀ (codes : Vector Code 8) (s : State) (c : Converting) (i : Fin 16) (n : Fin 8), s.held = false →
    s.cnv.scan = .converting c → c.buffer.length = i.val → s.acq.cfg.listLength ≤ c.buffer.length + 1 →
    c.taken ≤ s.cnv.slots[i].average.num → c.sum ≤ 4095 * c.taken → s.acq.state.openRec = some n →
    RingSound s → ShapesSound s →
    (¬WriterBlocked s →
        ∃ t w, exec (.slotEnd codes) s = .next t ∧ t.cnv = { s.cnv with scan := .presented (c.buffer ++ [w]) } ∧
          ConvertedWord s.cnv.slots[i] c codes w ∧ KeptBut [.cnv] s t) ∧
      (WriterBlocked s →
        ∃ t, exec (.slotEnd codes) s = .next t ∧ t.cnv = { s.cnv with scan := .free } ∧
          t.acq = { s.acq with dropped := if s.acq.dropped < 65535 then s.acq.dropped + 1 else 65535 } ∧
          t.evu = { s.evu with sticky := { s.evu.sticky with blocked := true } } ∧ t.rtb.order = s.rtb.order ∧
          (∀ m : Fin 8, t.rtb.recs[m] = if m = n then { s.rtb.recs[n] with gap := true } else s.rtb.recs[m]) ∧
          KeptBut [.cnv, .acq, .evu, .rtb] s t)

/-! ## The row commit -/

/-- R73, R74, R75, R76, R77: the sources that fire at a commit, and the states in which one of them takes the
trigger. -/
def Obligations.TriggerDecision : Prop :=
  ∀ (s : State) (row : List Word),
    let w := row.getD s.acq.cfg.trigSlot.val voidWord
    let judged :=
      isVoid w = false ∧
        ((isOver w = true ∧ s.acq.cfg.sense ≠ .under) ∨ (isUnder w = true ∧ s.acq.cfg.sense ≠ .over))
    let inWait := ∃ n, s.acq.state = .waittrig n
    ((firing s row).host = true ↔ s.acq.cfg.mask.host = true ∧ s.tru.host = true) ∧
      ((firing s row).line = true ↔ s.acq.cfg.mask.line = true ∧ s.tru.line = true) ∧
      ((firing s row).limit = true ↔ s.acq.cfg.mask.limit = true ∧ judged ∧ s.tru.flagged = false) ∧
      ((firing s row).count = true ↔
        s.acq.cfg.mask.count = true ∧ inWait ∧ min (s.tru.count + 1) 65535 = s.acq.cfg.trigCount) ∧
      (triggerTaken s row = true ↔
        (inWait ∨ ((∃ n, s.acq.state = .pre n) ∧ s.acq.cfg.early = true)) ∧
          ((firing s row).host = true ∨ (firing s row).line = true ∨ (firing s row).limit = true ∨
            (firing s row).count = true))

/-- R3, R53, R55, R65, R78: in every running state a commit that the port serves writes the 16 words of the writer row
and no other, counts the row, moves the writer row to its ring successor and ends the scan. -/
def Obligations.CommitWritesRow : Prop :=
  ∀ (s : State) (row : List Word) (n : Fin 8), s.cnv.scan = .presented row →
    s.acq.state.openRec = some n → CommitServed s → RingSound s → SheetSound s →
    ∃ t, exec .rowCommit s = .next t ∧ RowWritten s t row (triggerTaken s row) ∧
      t.acq.committed = s.acq.committed + 1#32 ∧ t.acq.dropped = s.acq.dropped ∧
      t.acq.holding = s.acq.holding ∧ t.acq.cfg = s.acq.cfg ∧
      t.acq.writer =
        (if s.acq.writer = s.acq.cfg.ringBase + s.acq.cfg.ringLength - 1 then s.acq.cfg.ringBase
          else s.acq.writer + 1) ∧
      t.cnv = { s.cnv with scan := .free } ∧ t.tru.sample = s.tru.sample ∧ t.evu.enables = s.evu.enables ∧
      KeptBut [.sst, .cnv, .acq, .tru, .rtb, .stm, .evu] s t

/-- R56, R57, R59, R74, R75: the open record at a commit that takes no trigger and seals nothing: it grows in PRE, up to
WAITTRIG at the pre count, slides in WAITTRIG, and gains a post row in POST. TRU drops its latches in PRE and WAITTRIG,
keeps the judgement of the row, and counts in WAITTRIG. -/
def Obligations.CommitGrowsRecord : Prop :=
  ∀ (s : State) (row : List Word) (n : Fin 8), s.cnv.scan = .presented row →
    s.acq.state.openRec = some n → CommitServed s → RingSound s → triggerTaken s row = false →
    (s.acq.state = .post n → s.rtb.recs[n].post + 1 ≠ s.acq.cfg.postCount) →
    ∃ t, exec .rowCommit s = .next t ∧ t.rtb.order = s.rtb.order ∧
      (∀ m : Fin 8, m ≠ n → t.rtb.recs[m] = s.rtb.recs[m]) ∧ t.evu = s.evu ∧ t.stm = s.stm ∧
      t.tru.flagged = rowFlagged s row ∧ t.tru.sample = s.tru.sample ∧
      (s.acq.state = .pre n →
        t.rtb.recs[n] = { s.rtb.recs[n] with length := s.rtb.recs[n].length + 1 } ∧
          t.acq.state = (if s.rtb.recs[n].length + 1 = s.acq.cfg.preCount then .waittrig n else .pre n) ∧
          t.tru.host = false ∧ t.tru.line = false ∧ t.tru.count = s.tru.count) ∧
      (s.acq.state = .waittrig n →
        t.rtb.recs[n] =
            { s.rtb.recs[n] with
              start :=
                if s.acq.cfg.preCount = 0 then t.acq.writer
                else if s.rtb.recs[n].start + 1 = s.acq.cfg.ringBase + s.acq.cfg.ringLength then s.acq.cfg.ringBase
                else s.rtb.recs[n].start + 1 } ∧
          t.acq.state = .waittrig n ∧ t.tru.host = false ∧ t.tru.line = false ∧
          t.tru.count = min (s.tru.count + 1) 65535) ∧
      (s.acq.state = .post n →
        t.rtb.recs[n] =
            { s.rtb.recs[n] with length := s.rtb.recs[n].length + 1, post := s.rtb.recs[n].post + 1 } ∧
          t.acq.state = .post n ∧ t.tru.host = s.tru.host ∧ t.tru.line = s.tru.line ∧ t.tru.count = s.tru.count)

/-- R58, R76, R77, R78: a trigger taken with a post count above 0 makes the row the trigger row and enters POST: PRE is
the rows held, TRIGSEQ the row's number, CAUSES the sources that fired, EARLY set from PRE; TRIGGER is set and the
latches clear. -/
def Obligations.TriggerOpensPost : Prop :=
  ∀ (s : State) (row : List Word) (n : Fin 8), s.cnv.scan = .presented row →
    (s.acq.state = .pre n ∨ s.acq.state = .waittrig n) → CommitServed s → RingSound s →
    triggerTaken s row = true → s.acq.cfg.postCount ≠ 0 →
    ∃ t, exec .rowCommit s = .next t ∧ t.acq.state = .post n ∧ t.rtb.order = s.rtb.order ∧
      (∀ m : Fin 8, t.rtb.recs[m] =
        if m = n then
          { s.rtb.recs[n] with
            pre := s.rtb.recs[n].length
            length := s.rtb.recs[n].length + 1
            post := 0
            trigSeq := s.acq.committed
            causes := firing s row
            early := decide (s.acq.state = .pre n) }
        else s.rtb.recs[m]) ∧
      (firing s row).any = true ∧ t.evu = { s.evu with sticky := { s.evu.sticky with trigger := true } } ∧
      t.tru.host = false ∧ t.tru.line = false ∧ t.tru.flagged = rowFlagged s row ∧ t.stm = s.stm

/-- R60, R61, R87, R90: a commit that completes the open record, in POST at the post count or at a trigger with post
count 0, seals it at the end of the sealing order and sets SEALED. With REARM clear ACQ goes IDLE with ACQDONE and the
timer stops; with REARM set the lowest FREE descriptor is the new open record at the new writer row and the timer runs
on; with none FREE ACQ is STARVED with its flag and the timer stops. -/
def Obligations.SealContinues : Prop :=
  ∀ (s : State) (row : List Word) (n : Fin 8) (d : Descriptor), RecordsSound s →
    s.cnv.scan = .presented row → CommitServed s → RingSound s →
    ((s.acq.state = .post n ∧ s.rtb.recs[n].post + 1 = s.acq.cfg.postCount ∧
        d = { s.rtb.recs[n] with length := s.rtb.recs[n].length + 1, post := s.rtb.recs[n].post + 1 }) ∨
      (s.acq.state.latching = true ∧ s.acq.state.openRec = some n ∧ triggerTaken s row = true ∧
        s.acq.cfg.postCount = 0 ∧
        d = s.rtb.recs[n].triggered s.acq.committed (firing s row) (decide (s.acq.state = .pre n)))) →
    ∃ t, exec .rowCommit s = .next t ∧ t.rtb.order = s.rtb.order ++ [n] ∧ t.rtb.recs[n] = { d with state := .sealed } ∧
      t.tru.host = (s.tru.host && !s.acq.state.latching) ∧ t.tru.line = (s.tru.line && !s.acq.state.latching) ∧
      let flags := { s.evu.sticky with trigger := s.evu.sticky.trigger || s.acq.state.latching, sealed := true }
      (s.acq.cfg.rearm = false →
        t.acq.state = .idle ∧ t.evu.sticky = { flags with acqdone := true } ∧
          t.stm = { s.stm with active := periodTicks s.acq.cfg.period } ∧
          ∀ m : Fin 8, m ≠ n → t.rtb.recs[m] = s.rtb.recs[m]) ∧
      (s.acq.cfg.rearm = true → ∀ k : Fin 8, s.rtb.recs[k].state = .free →
        (∀ m < k, s.rtb.recs[m].state ≠ .free) →
          t.acq.state = (if s.acq.cfg.preCount = 0 then .waittrig k else .pre k) ∧ t.evu.sticky = flags ∧
            t.stm = s.stm ∧ t.tru.flagged = false ∧ t.tru.count = 0 ∧
            t.rtb.recs[k] =
              ⟨.opened, t.acq.writer, 0, 0, 0, s.acq.cfg.listLength, 0#32, Sources.none, false, false, false, 0⟩ ∧
            ∀ m : Fin 8, m ≠ n → m ≠ k → t.rtb.recs[m] = s.rtb.recs[m]) ∧
      (s.acq.cfg.rearm = true → (∀ m : Fin 8, s.rtb.recs[m].state ≠ .free) →
        t.acq.state = .starved ∧ t.evu.sticky = { flags with starved := true } ∧
          t.stm = { s.stm with active := periodTicks s.acq.cfg.period } ∧
          ∀ m : Fin 8, m ≠ n → t.rtb.recs[m] = s.rtb.recs[m])

/-! ## The block engine -/

/-- R120, R121, R137, R146: taking the head command. It leaves the queue and its place joins the result queue; with ACQ
not IDLE and the ring overlapped it is answered RING_BUSY; else it runs with no element completed, an XWR in XWAIT at
once. -/
def Obligations.TakeDecided : Prop :=
  ∀ (s : State) (c : Staged) (rest : List Staged), s.held = false → s.ble = .idle → s.cq.queue = c :: rest → .pending ∉ s.rq →
    ((s.acq.state = .idle ∨ c.overlapsRing s.acq.cfg = false) →
        ∃ t, exec .take s = .next t ∧ t.cq = { s.cq with queue := rest } ∧ t.rq = s.rq ++ [.pending] ∧
          (c.kindNumber ≠ 6 →
            t.ble = .run ⟨c, 0, 0, none, Stats.none, [], false, false⟩ ∧ KeptBut [.cq, .rq, .ble] s t) ∧
          (c.kindNumber = 6 →
            t.ble = .xwait ⟨c, 0, 0, none, Stats.none, [], false, false⟩ ∧
              t.xf = { s.xf with timeout := s.timeoutStart } ∧ KeptBut [.cq, .rq, .ble, .xf] s t)) ∧
      (s.acq.state ≠ .idle → c.overlapsRing s.acq.cfg = true →
        ∃ t, exec .take s = .next t ∧ t.cq = { s.cq with queue := rest } ∧
          t.rq = s.rq ++ [.posted ⟨c.tagBits, c.kindBits, .ringBusy, 0, .none⟩] ∧ PinsReleased c s t ∧
          KeptBut [.cq, .rq, .rtb] s t)

/-- R127, R128, R129, and R11, R12, R126 for the accesses of the element: one element of MOVE under each OP. It reads the
source word, under a combining OP then the destination word, and writes; words already read are used as read. A void
source with SKIP_VOID is skipped and the destination keeps its word; otherwise the destination word alone is written:
COPY the source word; a combining OP the table's code with the union of the flags for two valid words, the source word
over a void destination, the VOID word for a void source. With a row commit waiting the access in progress completes,
and the rest of the element waits. That an element the port is free for is served at once is log 4 and 15. -/
def Obligations.MoveElement : Prop :=
  ∀ (op : MoveOp) (s : State) (r : Running) (k l : Nat), s.ble = .run r → r.cmd.kind = some .move →
    r.cmd.op = some op → SheetSound s → .pending ∈ s.rq →
    r.cmd.elementAddr r.cmd.source s.acq.cfg s.rtb r.progress = some k →
    r.cmd.elementAddr r.cmd.dest s.acq.cfg s.rtb r.progress = some l →
    let a := match r.reads with | x :: _ => x | [] => s.wordAt k
    let b := match r.reads with | _ :: y :: _ => y | _ => s.wordAt l
    let skipped := r.reads = [] ∧ isVoid a = true ∧ r.cmd.skipVoid = true
    let complete := fun t : State =>
      ElementDone s t { r with progress := r.progress + 1, reads := [], busy := false }
          (if r.cmd.w * r.cmd.h ≤ r.progress + 1 then some (.done, .none) else none) ∧
        (skipped → t.sst = s.sst) ∧ (¬skipped → ∃ w, Stored s t l w ∧ Combined op a b w)
    let waits := fun (t : State) (words : List Word) =>
      t.ble = .run { r with reads := words, busy := false } ∧ KeptBut [.ble] s t
    (PortFree s → ∃ t, exec (moveInstr op) s = .next t ∧ complete t) ∧
      ∀ row, s.held = false → s.sweeping = false → s.cnv.scan = .presented row → r.busy = true →
        ∃ t, exec (moveInstr op) s = .next t ∧
          if skipped then complete t
          else if r.reads = [] then waits t [a]
          else if r.reads.length = 1 ∧ op ≠ .copy then waits t [a, b]
          else complete t

/-- R131, R138: one element of FILL writes PARAM unchanged to the destination word and to no other; and a FILL that
nothing disturbs writes it to exactly the elements of its rectangle, and answers DONE with PROGRESS WIDTH × HEIGHT. That
an element the port serves is served at once is log 4. -/
def Obligations.FillFillsItsRectangle : Prop :=
  (∀ (s : State) (r : Running) (b : Nat), s.ble = .run r → r.cmd.kind = some .fill → PortServes s r → SheetSound s →
      .pending ∈ s.rq → r.cmd.elementAddr r.cmd.dest s.acq.cfg s.rtb r.progress = some b →
      ∃ t, exec .fill s = .next t ∧ Stored s t b r.cmd.param ∧
        ElementDone s t { r with progress := r.progress + 1, reads := [], busy := false }
          (if r.cmd.w * r.cmd.h ≤ r.progress + 1 then some (.done, .none) else none)) ∧
    ∀ (s : State) (c : Staged), s.ble = .run (Running.start c) → c.kind = some .fill → c.rectOk s.rtb = true →
      c.recordsOk s.rtb = true → RingSound s → SheetSound s → PortFree s →
      .pending ∈ s.rq →
      ∃ t, execTimes .fill (c.w * c.h) s = .next t ∧ Answered s t c .done (c.w * c.h) .none ∧
        t.sst.sweepPos = s.sst.sweepPos ∧
        (∀ k, (∃ e, e < c.w * c.h ∧ c.elementAddr c.dest s.acq.cfg s.rtb e = some k) →
          Sheet.read t.sst.cells k = c.param) ∧
        (∀ k, (∀ e, e < c.w * c.h → c.elementAddr c.dest s.acq.cfg s.rtb e ≠ some k) →
          Sheet.read t.sst.cells k = Sheet.read s.sst.cells k) ∧
        KeptBut [.sst, .ble, .rq, .rtb] s t

/-- R132, R133, R134: one element of SRCH under each condition. It is judged on the word read; a match answers FOUND
with the offset along the search, the row and the word; the last element without one NOT_FOUND; the previous value is
the last valid code. The sheet stays. That an element the port serves is served at once is log 4. -/
def Obligations.SearchElement : Prop :=
  ∀ (cond : Cond) (s : State) (r : Running) (a : Nat), s.ble = .run r → r.cmd.kind = some .srch →
    r.cmd.cond = some cond → r.cmd.w = 1 → PortServes s r → .pending ∈ s.rq →
    r.cmd.elementAddr r.cmd.source s.acq.cfg s.rtb r.progress = some a → r.progress < r.cmd.h →
    let w := s.wordAt a
    let T := r.cmd.threshold
    let found :=
      match cond with
      | .above => isVoid w = false ∧ codeOf w > T
      | .below => isVoid w = false ∧ codeOf w < T
      | .rise => isVoid w = false ∧ ∃ p, r.prev = some p ∧ p ≤ T ∧ T < codeOf w
      | .fall => isVoid w = false ∧ ∃ p, r.prev = some p ∧ p ≥ T ∧ T > codeOf w
      | .flagged => isVoid w = false ∧ (isOver w = true ∨ isUnder w = true)
      | .marked => isVoid w = false ∧ isMark w = true
      | .voided => isVoid w = true
    let i := if r.cmd.rowDesc then r.cmd.h - 1 - r.progress else r.progress
    let r' : Running :=
      { r with
        progress := r.progress + 1
        reads := []
        busy := false
        prev := if isVoid w then r.prev else some (codeOf w) }
    ∃ t, exec (srchInstr cond) s = .next t ∧ t.sst = s.sst ∧
      (found → ElementDone s t r' (some (.found, .found r.progress (r.cmd.source.line + i) w))) ∧
      (¬found →
        ElementDone s t r' (if r.progress + 1 = r.cmd.h then some (.notFound, .none) else none))

/-- R132, R134: a search that nothing disturbs stops at the first element in element order that matches, with its offset
as FOUND_AT; the previous value of an element is the code of the last valid word before it. -/
def Obligations.SearchFindsTheFirst : Prop :=
  ∀ (cond : Cond) (s : State) (c : Staged) (k : Nat) (word : Nat → Word), s.ble = .run (Running.start c) →
    c.kind = some .srch → c.cond = some cond → c.rectOk s.rtb = true → c.recordsOk s.rtb = true → RingSound s →
    PortFree s → .pending ∈ s.rq → k < c.h →
    (∀ e, e < c.h → ∃ a, c.elementAddr c.source s.acq.cfg s.rtb e = some a ∧ word e = s.wordAt a) →
    let prev := fun e => ((List.range e).map word).foldl nextPrev none
    (∀ e, e < k → cond.holds c.threshold (prev e) (word e) = false) → cond.holds c.threshold (prev k) (word k) = true →
    ∃ t, execTimes (srchInstr cond) (k + 1) s = .next t ∧
      Answered s t c .found (k + 1)
        (.found k (c.source.line + if c.rowDesc then c.h - 1 - k else k) (word k)) ∧
      KeptBut [.ble, .rq, .rtb] s t

/-- R135, R136: one element of RDUC takes a valid word into the statistics and a void word into PROGRESS alone; the
last one answers DONE with them. The sheet stays. That an element the port serves is served at once is log 4. -/
def Obligations.ReduceElement : Prop :=
  ∀ (s : State) (r : Running) (a : Nat), s.ble = .run r → r.cmd.kind = some .rduc → PortServes s r → .pending ∈ s.rq →
    r.cmd.elementAddr r.cmd.source s.acq.cfg s.rtb r.progress = some a →
    let w := s.wordAt a
    ∃ t st, exec .rduc s = .next t ∧ t.sst = s.sst ∧ (isVoid w = true → st = r.stats) ∧
      (isVoid w = false →
        st.vcount = r.stats.vcount + 1 ∧ st.sum = r.stats.sum + codeOf w ∧
          let row := r.cmd.source.line + r.cmd.rowOf r.progress
          let col := r.cmd.source.col + r.cmd.colOf r.progress
          (if r.stats.vcount = 0 ∨ codeOf w < r.stats.min then
              st.min = codeOf w ∧ st.minRow = row ∧ st.minCol = col
            else st.min = r.stats.min ∧ st.minRow = r.stats.minRow ∧ st.minCol = r.stats.minCol) ∧
          (if r.stats.vcount = 0 ∨ r.stats.max < codeOf w then
              st.max = codeOf w ∧ st.maxRow = row ∧ st.maxCol = col
            else st.max = r.stats.max ∧ st.maxRow = r.stats.maxRow ∧ st.maxCol = r.stats.maxCol)) ∧
      ElementDone s t { r with progress := r.progress + 1, reads := [], busy := false, stats := st }
        (if r.cmd.w * r.cmd.h ≤ r.progress + 1 then some (.done, .reduced st) else none)

/-- R135, R136: a reduction that nothing disturbs answers the number and the sum of the valid codes of its rectangle,
the smallest and the largest, each with the position of its first occurrence in element order. -/
def Obligations.ReduceGivesStatistics : Prop :=
  ∀ (s : State) (c : Staged) (word : Nat → Word), s.ble = .run (Running.start c) → c.kind = some .rduc →
    c.rectOk s.rtb = true → c.recordsOk s.rtb = true → RingSound s → PortFree s →
    .pending ∈ s.rq →
    (∀ e, e < c.w * c.h → ∃ a, c.elementAddr c.source s.acq.cfg s.rtb e = some a ∧ word e = s.wordAt a) →
    let valid := (List.range (c.w * c.h)).filter fun e => !isVoid (word e)
    ∃ t st, execTimes .rduc (c.w * c.h) s = .next t ∧ Answered s t c .done (c.w * c.h) (.reduced st) ∧
      st.vcount = valid.length ∧ st.sum = (valid.map fun e => codeOf (word e)).sum ∧
      (∀ e ∈ valid, st.min ≤ codeOf (word e) ∧ codeOf (word e) ≤ st.max) ∧
      (valid ≠ [] →
        (∃ e ∈ valid, codeOf (word e) = st.min ∧ (∀ f ∈ valid, f < e → codeOf (word f) ≠ st.min) ∧
            st.minRow = c.source.line + c.rowOf e ∧ st.minCol = c.source.col + c.colOf e) ∧
          ∃ e ∈ valid, codeOf (word e) = st.max ∧ (∀ f ∈ valid, f < e → codeOf (word f) ≠ st.max) ∧
            st.maxRow = c.source.line + c.rowOf e ∧ st.maxCol = c.source.col + c.colOf e) ∧
      KeptBut [.ble, .rq, .rtb] s t

/-! ## Transfers -/

/-- R137, R140, R145, R146, R150, R151: one element of a transfer. XRD puts the source word at the tail of XF and waits in
XWAIT when XF is full or every source element is read; PROGRESS stays. XWR takes the head word of XF to the destination
word and to no other, and counts; after the last the answer is DONE with XF empty, with XF empty before it XWAIT. The
timeout starts with XWAIT. A marked command is answered ABORTED. That an element the port serves is served
at once is log 4. -/
def Obligations.TransferElement : Prop :=
  ∀ (s : State) (r : Running), s.ble = .run r → PortServes s r → .pending ∈ s.rq →
    (∀ a, r.cmd.kind = some .xrd → s.xf.words.length < 4 → r.fetched < r.cmd.w * r.cmd.h →
        r.cmd.elementAddr r.cmd.source s.acq.cfg s.rtb r.fetched = some a →
        ∃ t, exec .xrd s = .next t ∧ KeptBut [.ble, .xf, .rq, .rtb] s t ∧
          let r' : Running := { r with fetched := r.fetched + 1, busy := false }
          if r.aborting then Answered s t r.cmd .aborted r.progress .none ∧ XfEmptied s t
          else t.rq = s.rq ∧ t.rtb = s.rtb ∧
            if s.xf.words.length = 3 ∨ r.fetched + 1 = r.cmd.w * r.cmd.h then
              t.ble = .xwait r' ∧ t.xf = ⟨s.xf.words ++ [s.wordAt a], s.xf.last, s.timeoutStart⟩
            else t.ble = .run r' ∧ t.xf = ⟨s.xf.words ++ [s.wordAt a], s.xf.last, none⟩) ∧
      (∀ b w rest, r.cmd.kind = some .xwr → SheetSound s → s.xf.words = w :: rest →
        r.cmd.elementAddr r.cmd.dest s.acq.cfg s.rtb r.progress = some b →
        ∃ t, exec .xwr s = .next t ∧ Stored s t b w ∧ KeptBut [.sst, .ble, .xf, .rq, .rtb] s t ∧
          let r' : Running := { r with progress := r.progress + 1, reads := [], busy := false }
          if r.aborting then Answered s t r.cmd .aborted (r.progress + 1) .none ∧ XfEmptied s t
          else if r.cmd.w * r.cmd.h ≤ r.progress + 1 then
            Answered s t r.cmd .done (r.progress + 1) .none ∧ XfEmptied s t
          else t.rq = s.rq ∧ t.rtb = s.rtb ∧
            (rest = [] → t.ble = .xwait r' ∧ t.xf = ⟨[], s.xf.last, s.timeoutStart⟩) ∧
            (rest ≠ [] → t.ble = .run r' ∧ t.xf = ⟨rest, s.xf.last, none⟩))

/-- R148, R150, R151: a read of XDATA. With a word of an XRD in XF it takes the head word, and the last one of the
command is answered DONE; with none it repeats the last returned word; with no XRD running it returns the VOID word;
the two last set XUNDER. An access that leaves the engine in XWAIT starts the timeout again, one that takes it to RUN
stops it. A command marked by ABORT is met as in RUN until its result is posted (log 25). -/
def Obligations.XdataRead : Prop :=
  ∀ s : State, s.held = false →
    (∀ r w rest, s.ble = .run r ∨ s.ble = .xwait r → r.cmd.kind = some .xrd → s.xf.words = w :: rest →
        .pending ∈ s.rq →
        ∃ t, exec .xdataRead s = .next t ∧ t.busData = w ∧ KeptBut [.ble, .xf, .rq, .rtb, .bus] s t ∧
          let r' : Running := { r with progress := r.progress + 1 }
          if r.cmd.w * r.cmd.h ≤ r.progress + 1 then
            Answered s t r.cmd .done (r.progress + 1) .none ∧ t.xf = ⟨[], w, none⟩
          else t.rq = s.rq ∧ t.rtb = s.rtb ∧
            if rest.length < 4 ∧ r.fetched < r.cmd.w * r.cmd.h then t.ble = .run r' ∧ t.xf = ⟨rest, w, none⟩
            else t.ble = .xwait r' ∧ t.xf = ⟨rest, w, s.timeoutStart⟩) ∧
      (∀ r, s.ble = .run r → r.cmd.kind = some .xrd → s.xf.words = [] →
        ∃ t, exec .xdataRead s = .next t ∧ t.busData = s.xf.last ∧
          t.evu = { s.evu with sticky := { s.evu.sticky with xunder := true } } ∧ KeptBut [.evu, .bus] s t) ∧
      ((s.ble = .idle ∨ ∃ r, s.ble = .run r ∧ r.cmd.kind ≠ some .xrd) →
        ∃ t, exec .xdataRead s = .next t ∧ t.busData = 0x8000#16 ∧ t.xf = { s.xf with last := 0x8000#16 } ∧
          t.evu = { s.evu with sticky := { s.evu.sticky with xunder := true } } ∧ KeptBut [.evu, .bus, .xf] s t) ∧
      (∀ r, s.ble = .xwait r → r.cmd.kind = some .xwr →
        ∃ t, exec .xdataRead s = .next t ∧ t.busData = 0x8000#16 ∧
          t.xf = ⟨s.xf.words, 0x8000#16, s.timeoutStart⟩ ∧
          t.evu = { s.evu with sticky := { s.evu.sticky with xunder := true } } ∧ KeptBut [.evu, .bus, .xf] s t)

/-- R146, R149, R151: a write of XDATA. In an XWR with room the word joins the tail of XF and the engine is in RUN; in
every other case it is dropped with XOVER, and in XWAIT the timeout starts again. A command marked by ABORT is met as in
RUN until its result is posted (log 25). -/
def Obligations.XdataWrite : Prop :=
  ∀ (w : Word) (s : State), s.held = false →
    (∀ r, s.ble = .run r ∨ s.ble = .xwait r → r.cmd.kind = some .xwr →
        s.xf.words.length < min 4 (r.cmd.w * r.cmd.h - r.progress) →
        ∃ t, exec (.xdataWrite w) s = .next t ∧ t.ble = .run r ∧ t.xf = ⟨s.xf.words ++ [w], s.xf.last, none⟩ ∧
          KeptBut [.ble, .xf] s t) ∧
      ((s.ble = .idle ∨
          ∃ r, s.ble = .run r ∧
            (r.cmd.kind ≠ some .xwr ∨ min 4 (r.cmd.w * r.cmd.h - r.progress) ≤ s.xf.words.length)) →
        ∃ t, exec (.xdataWrite w) s = .next t ∧
          t.evu = { s.evu with sticky := { s.evu.sticky with xover := true } } ∧ KeptBut [.evu] s t) ∧
      (∀ r, s.ble = .xwait r → r.cmd.kind = some .xrd →
        ∃ t, exec (.xdataWrite w) s = .next t ∧ t.xf = { s.xf with timeout := s.timeoutStart } ∧
          t.evu = { s.evu with sticky := { s.evu.sticky with xover := true } } ∧ KeptBut [.evu, .xf] s t)

/-- R153, R155: the expiry of a running transfer timeout answers TIMEOUT with PROGRESS as it stands and empties XF; the
last returned word and every flag stay. A timeout that is not running does not expire (log 6). -/
def Obligations.TransferTimeout : Prop :=
  ∀ s : State, s.held = false →
    (∀ r k, s.ble = .xwait r → s.xf.timeout = some k → .pending ∈ s.rq →
        ∃ t, exec .transferTimeout s = .next t ∧ Answered s t r.cmd .timeout r.progress .none ∧ XfEmptied s t ∧
          KeptBut [.ble, .xf, .rq, .rtb] s t) ∧
      (s.xf.timeout = none → exec .transferTimeout s = .next s)

/-! ## The table port and the window -/

/-- R166: TPTR holds table, index and auto-increment bit. The tables are SCAN of 64 words, ACQ of 16, RECORD of 64 and
COUNT of 8, with the codes 0 to 3 in bits 8–9; the index is in bits 0–5, the auto-increment bit is bit 15. A write
replaces all three, the index reduced modulo the table's size; a read returns them; both resets leave SCAN, 0, clear; a
TDATA access moves the index by 1 with wrap when the bit is set, whether or not a write was accepted, and leaves it when
clear; no other command moves the index. -/
def Obligations.TablePointer : Prop :=
  ∀ (s t : State) (w : Word), s.held = false →
    let tables := [(0, TableName.scan, 64), (1, .acq, 16), (2, .record, 64), (3, .count, 8)]
    (∀ p ∈ tables, field w 8 2 = p.1 →
        exec (.tptrWrite w) s = .next
          { s with
            hpi := { s.hpi with table := p.2.1, index := field w 0 6 % p.2.2, autoInc := w.getLsbD 15 } }) ∧
      (∀ p ∈ tables, s.hpi.table = p.2.1 → s.hpi.index < p.2.2 →
        (field (s.readWindow 0x04#5) 0 6 = s.hpi.index ∧ field (s.readWindow 0x04#5) 8 2 = p.1 ∧
            (s.readWindow 0x04#5).getLsbD 15 = s.hpi.autoInc) ∧
          ∀ c ∈ [Instr.tdataRead, .tdataWrite w], exec c s = .next t →
            t.hpi =
              { s.hpi with
                index :=
                  if s.hpi.autoInc then (if s.hpi.index = p.2.2 - 1 then 0 else s.hpi.index + 1) else s.hpi.index }) ∧
      (∀ c : Instr, c.wellFormed = true → exec c s = .next t →
        (∀ h g e, (c = .powerOnReset h g e ∨ c = .srst) →
            t.hpi.table = .scan ∧ t.hpi.index = 0 ∧ t.hpi.autoInc = false) ∧
          ((∀ h g e, c ≠ .powerOnReset h g e) → c ≠ .srst → (∀ v, c ≠ .tptrWrite v) → c ≠ .tdataRead →
              (∀ v, c ≠ .tdataWrite v) →
            t.hpi.table = s.hpi.table ∧ t.hpi.index = s.hpi.index ∧ t.hpi.autoInc = s.hpi.autoInc))

/-- R65, R84, R167, R169: a read of TDATA returns the word at the index; at COUNT word 0 the high half of the
committed-row counter is captured in the holding word, at any other index nothing is. The words of the RECORD and COUNT
tables have the layout of 11.4: RECORD word 0 holds STATE in bits 0–1, TRUNCATED, GAP and EARLY in bits 4–6 and PINS in
bits 8–11; words 1 to 4 START, LENGTH, PRE and POST; word 5 COLUMNS in bits 0–4 and CAUSES in bits 8–11; words 6 and 7
TRIGSEQ, low half first. The COUNT words are numbers, NONE 15. Bits that name no field read as 0 (log 21). -/
def Obligations.TdataRead : Prop :=
  ∀ s : State, s.held = false → s.hpi.index < s.hpi.table.size →
    ∃ t, exec .tdataRead s = .next t ∧ t.busData = s.tableWord s.hpi.table s.hpi.index ∧ IndexMoved s t ∧
      (s.hpi.table = .count ∧ s.hpi.index = 0 →
        t.acq = { s.acq with holding := s.acq.committed.extractLsb' 16 16 } ∧
          t.busData = s.acq.committed.extractLsb' 0 16 ∧ t.countWord 1 = s.acq.committed.extractLsb' 16 16) ∧
      (¬(s.hpi.table = .count ∧ s.hpi.index = 0) → t.acq = s.acq) ∧ KeptBut [.bus, .acq, .hpi] s t ∧
      (∀ (n : Fin 8) (i : Nat), s.hpi.table = .record → s.hpi.index = 8 * n.val + i →
        let d := s.rtb.recs[n]
        let bit := fun (b : Bool) => if b then 1 else 0
        (i = 0 → d.pins ≤ 8 →
            t.busData.toNat =
              (match d.state with | .free => 0 | .opened => 1 | .sealed => 2) + 16 * bit d.truncated +
                32 * bit d.gap + 64 * bit d.early + 256 * d.pins) ∧
          (i = 1 → d.start ≤ 2047 → t.busData.toNat = d.start) ∧
          (i = 2 → d.length ≤ 2048 → t.busData.toNat = d.length) ∧
          (i = 3 → d.pre ≤ 2047 → t.busData.toNat = d.pre) ∧ (i = 4 → d.post ≤ 2047 → t.busData.toNat = d.post) ∧
          (i = 5 → d.columns ≤ 16 →
            t.busData.toNat =
              d.columns + 256 * bit d.causes.host + 512 * bit d.causes.line + 1024 * bit d.causes.limit +
                2048 * bit d.causes.count) ∧
          (i = 6 → t.busData.toNat = d.trigSeq.toNat % 65536) ∧ (i = 7 → t.busData.toNat = d.trigSeq.toNat / 65536)) ∧
      (s.hpi.table = .count →
        (s.hpi.index = 1 → t.busData = s.acq.holding) ∧
          (s.hpi.index = 2 → s.acq.dropped ≤ 65535 → t.busData.toNat = s.acq.dropped) ∧
          (s.hpi.index = 3 → s.acq.writer ≤ 2047 → t.busData.toNat = s.acq.writer) ∧
          (s.hpi.index = 4 →
            t.busData.toNat =
              match s.acq.state with | .pre n => n.val | .waittrig n => n.val | .post n => n.val | _ => 15) ∧
          (s.hpi.index = 5 → t.busData.toNat = match s.rtb.order with | n :: _ => n.val | [] => 15) ∧
          (s.hpi.index = 6 → s.cq.tickets ≤ 8 → t.busData.toNat = s.cq.tickets) ∧
          (s.hpi.index = 7 → s.sst.sweepPos ≤ 32768 → t.busData.toNat = s.sst.sweepPos / 16))

/-- R7, R18, R19, R30, R49, R53, R168: a write of TDATA that its table does not accept is discarded with ACCESS; an
accepted one replaces the whole word, which then reads as written in the bits that name a field, and no other word of
the SCAN, ACQ and RECORD tables changes. The index moves either way. A write of the geometry sets the writer row to the
ring base; a period written with the timer stopped is active at once, one written while it runs leaves the timer. -/
def Obligations.TdataWriteDecided : Prop :=
  ∀ (w : Word) (s : State), s.held = false → s.hpi.index < s.hpi.table.size →
    (¬TdataAccepts s w →
      ∃ t, exec (.tdataWrite w) s = .next t ∧ IndexMoved s t ∧
        t.evu = { s.evu with sticky := { s.evu.sticky with access := true } } ∧ KeptBut [.hpi, .evu] s t) ∧
      (RingSound s → RangesSound s → TdataAccepts s w →
        ∃ t, exec (.tdataWrite w) s = .next t ∧ IndexMoved s t ∧
          t.tableWord s.hpi.table s.hpi.index = w &&& tableMask s.hpi.table s.hpi.index ∧
          (∀ table i, table ≠ .count → i < table.size → (table, i) ≠ (s.hpi.table, s.hpi.index) →
            t.tableWord table i = s.tableWord table i) ∧
          (s.hpi.table = .acq ∧ s.hpi.index ≤ 1 → t.acq.writer = t.acq.cfg.ringBase) ∧
          (¬(s.hpi.table = .acq ∧ s.hpi.index ≤ 1) → t.acq.writer = s.acq.writer) ∧
          (s.hpi.table = .acq ∧ s.hpi.index = 11 ∧ s.timerRunning = false →
            t.stm = { s.stm with active := if w = 0#16 then 65536 else w.toNat }) ∧
          (¬(s.hpi.table = .acq ∧ s.hpi.index = 11 ∧ s.timerRunning = false) → t.stm = s.stm) ∧
          t.acq.state = s.acq.state ∧ t.acq.committed = s.acq.committed ∧ t.acq.dropped = s.acq.dropped ∧
          t.acq.holding = s.acq.holding ∧ t.cnv.scan = s.cnv.scan ∧ KeptBut [.acq, .cnv, .stm, .hpi] s t)

/-- R146, R147, R157, R159, R161: EVENTS shows the fourteen flags, the level flags by their conditions: XFER while an XRD
runs and XF holds a word, or an XWR runs and XF holds fewer words than its capacity. A write of EVENTS clears each
sticky flag written as 1, leaves the others and the level flags, and sets none; a write of ENABLES replaces the fourteen
enables and leaves the flags; the line is asserted exactly while a flag and its enable are both set. -/
def Obligations.EventsAndEnables : Prop :=
  ∀ (w : Word) (s : State), s.held = false →
    (∃ t, exec (.eventsWrite w) s = .next t ∧ KeptBut [.evu] s t ∧ t.evu.enables = s.evu.enables ∧
      (∀ i, 3 ≤ i → i ≤ 13 → t.eventsWord.getLsbD i = (s.eventsWord.getLsbD i && !w.getLsbD i)) ∧
      (∀ i, i < 3 → t.eventsWord.getLsbD i = s.eventsWord.getLsbD i)) ∧
      (∃ t, exec (.enablesWrite w) s = .next t ∧ KeptBut [.evu] s t ∧ t.evu.sticky = s.evu.sticky ∧
        t.eventsWord = s.eventsWord ∧ t.readWindow 0x03#5 = w &&& 0x3FFF#16) ∧
      (s.irq = true ↔ ∃ i < 14, s.eventsWord.getLsbD i = true ∧ s.evu.enables.getLsbD i = true) ∧
      (s.eventsWord.getLsbD 0 = true ↔ ∃ e rest, s.rq = .posted e :: rest) ∧
      (s.eventsWord.getLsbD 1 = true ↔ 1 ≤ s.cq.tickets) ∧ (s.eventsWord.getLsbD 2 = true ↔ XferCondition s) ∧
      s.eventsWord.getLsbD 3 = s.evu.sticky.sealed ∧ s.eventsWord.getLsbD 4 = s.evu.sticky.acqdone ∧
      s.eventsWord.getLsbD 5 = s.evu.sticky.starved ∧ s.eventsWord.getLsbD 6 = s.evu.sticky.trigger ∧
      s.eventsWord.getLsbD 7 = s.evu.sticky.late ∧ s.eventsWord.getLsbD 8 = s.evu.sticky.blocked ∧
      s.eventsWord.getLsbD 9 = s.evu.sticky.xunder ∧ s.eventsWord.getLsbD 10 = s.evu.sticky.xover ∧
      s.eventsWord.getLsbD 11 = s.evu.sticky.access ∧ s.eventsWord.getLsbD 12 = s.evu.sticky.refused ∧
      s.eventsWord.getLsbD 13 = s.evu.sticky.init

/-- R100, R113, R164, R170: a write of a staging word replaces it whole and leaves the others and the accepted commands;
a write of STATUS or the result window is ignored; a write of an unassigned word sets ACCESS and nothing else. A write
of REQ is the request that its code, bits 0–3, names, with the argument in bits 4–15 for RLS; a write of EVENTS,
ENABLES, TPTR, TDATA or XDATA is the command of that name (log 18). A 16-bit word spells the request that it names in
REQ (log 17). -/
def Obligations.WindowWrite : Prop :=
  ∀ (offset : BitVec 5) (w : Word) (s : State), s.held = false →
    (0x08#5 ≤ offset → offset ≤ 0x0F#5 →
        ∃ t, exec (.windowWrite offset w) s = .next t ∧ t.readWindow offset = w ∧
          (∀ o, 0x08#5 ≤ o → o ≤ 0x0F#5 → o ≠ offset → t.readWindow o = s.readWindow o) ∧
          t.cq.queue = s.cq.queue ∧ t.cq.tickets = s.cq.tickets ∧ KeptBut [.cq] s t) ∧
      (offset = 0x01#5 ∨ (0x10#5 ≤ offset ∧ offset ≤ 0x19#5) → exec (.windowWrite offset w) s = .next s) ∧
      (offset = 0x07#5 ∨ 0x1A#5 ≤ offset →
        ∃ t, exec (.windowWrite offset w) s = .next t ∧
          t.evu = { s.evu with sticky := { s.evu.sticky with access := true } } ∧ KeptBut [.evu] s t) ∧
      (∀ p ∈ [(1, Instr.srst), (2, .arm), (3, .stop), (4, .trig), (5, .submit), (6, .abort), (7, .flush), (8, .pop),
            (9, .rls (w.extractLsb' 4 12))],
          field w 0 4 = p.1 → exec (.windowWrite 0x00#5 w) s = exec p.2 s ∧ decodeTableWord 16 w.toNat = some p.2) ∧
      (field w 0 4 = 0 ∨ 10 ≤ field w 0 4 →
        exec (.windowWrite 0x00#5 w) s = exec (.badCodeRequest (w.extractLsb' 0 4)) s ∧
          decodeTableWord 16 w.toNat = some (.badCodeRequest (w.extractLsb' 0 4))) ∧
      ∀ p ∈ [(0x02#5, Instr.eventsWrite w), (0x03#5, .enablesWrite w), (0x04#5, .tptrWrite w), (0x05#5, .tdataWrite w),
          (0x06#5, .xdataWrite w)],
        exec (.windowWrite p.1 w) s = exec p.2 s

/-- R112, R113, R136, R147, R165: STATUS shows each owner's field, the queued count in three bits (log 20). While the head
of the result queue is not a posted entry the result window reads 0; else it shows TAG, KIND, STATUS and PROGRESS,
FOUND_AT and FOUND_VALUE of a match, and of a reduction SUM, VCOUNT and, with a word counted, MIN, MAX, MINPOS and MAXPOS,
each position with its row in bits 0–10 and its column in bits 11–14; with none counted these four read 0. -/
def Obligations.StatusAndResultWindow : Prop :=
  ∀ s : State, s.held = false →
    (s.cq.queue.length ≤ 7 → postedCount s.rq ≤ 8 →
        field s.statusWord 0 3 = s.acq.state.code ∧
          field s.statusWord 3 2 = (if s.sweeping then 3 else s.ble.code) ∧
          (s.statusWord.getLsbD 5 = true ↔ XferCondition s) ∧
          (∀ n, s.acq.state.openRec = some n → field s.statusWord 6 3 = n.val) ∧
          (s.acq.state.openRec = none → field s.statusWord 6 3 = 0) ∧
          field s.statusWord 9 3 = s.cq.queue.length ∧ field s.statusWord 12 4 = postedCount s.rq) ∧
      ((∀ e rest, s.rq ≠ .posted e :: rest) → ∀ o, 0x10#5 ≤ o → o ≤ 0x19#5 → s.readWindow o = 0#16) ∧
      ∀ e rest, s.rq = .posted e :: rest →
        field (s.readWindow 0x10#5) 0 8 = e.tag.toNat ∧ field (s.readWindow 0x10#5) 8 4 = e.kind.toNat ∧
          field (s.readWindow 0x10#5) 12 4 = e.status.code ∧
          (e.progress ≤ 32768 → (s.readWindow 0x11#5).toNat = e.progress) ∧
          (e.detail = .none → ∀ o, 0x12#5 ≤ o → o ≤ 0x19#5 → s.readWindow o = 0#16) ∧
          (∀ k row v, e.detail = .found k row v → k < 2048 → row < 4096 →
            (s.readWindow 0x12#5).toNat = k ∧ (s.readWindow 0x13#5).toNat = row ∧ s.readWindow 0x14#5 = v) ∧
          (∀ st, e.detail = .reduced st → st.sum ≤ 134184960 → st.vcount ≤ 32768 →
            (s.readWindow 0x16#5).toNat + 65536 * (s.readWindow 0x17#5).toNat = st.sum ∧
              (s.readWindow 0x18#5).toNat = st.vcount ∧
              (st.vcount = 0 → ∀ o, 0x12#5 ≤ o → o ≤ 0x15#5 → s.readWindow o = 0#16) ∧
              (1 ≤ st.vcount → st.min ≤ 4095 → st.max ≤ 4095 →
                (s.readWindow 0x12#5).toNat = st.min ∧ (s.readWindow 0x13#5).toNat = st.max) ∧
              (1 ≤ st.vcount → st.minRow ≤ 2047 → st.minCol ≤ 15 →
                (s.readWindow 0x14#5).toNat = st.minRow + 2048 * st.minCol) ∧
              (1 ≤ st.vcount → st.maxRow ≤ 2047 → st.maxCol ≤ 15 →
                (s.readWindow 0x15#5).toNat = st.maxRow + 2048 * st.maxCol))

/-! ## Coordinates -/

/-- R6: the k-th element has row step ⌊k / WIDTH⌋ and column step k mod WIDTH along the orders the flags give, and
element order visits every position of the rectangle once. -/
def Obligations.ElementOrder : Prop :=
  ∀ c : Staged, 1 ≤ c.w → 1 ≤ c.h →
    (∀ k, k < c.w * c.h →
        c.rowOf k = (if c.rowDesc then c.h - 1 - k / c.w else k / c.w) ∧
          c.colOf k = (if c.colDesc then c.w - 1 - k % c.w else k % c.w) ∧ c.rowOf k < c.h ∧ c.colOf k < c.w) ∧
      ∀ i j, i < c.h → j < c.w → ∃! k, k < c.w * c.h ∧ c.rowOf k = i ∧ c.colOf k = j

/-- R5, R9: an absolute position is the sheet word at origin plus position; a record-relative one lies in the column
plus position of ring row base + ((START − base + offset) mod length), inside the record's arc. -/
def Obligations.PositionsMapToTheSheet : Prop :=
  ∀ (s : State) (q : Coord) (i j : Nat), RingSound s → ShapesSound s → q.col + j < 16 →
    (q.relative = false → q.line + i < 2048 →
        q.addr s.acq.cfg s.rtb i j = some (16 * (q.line + i) + (q.col + j))) ∧
      (q.relative = true → s.rtb.recs[q.record].state = .sealed → q.line + i < s.rtb.recs[q.record].length →
        ∃ row, q.addr s.acq.cfg s.rtb i j = some (16 * row + (q.col + j)) ∧
          s.acq.cfg.ringBase ≤ row ∧ row < s.acq.cfg.ringBase + s.acq.cfg.ringLength ∧
          (row - s.acq.cfg.ringBase : Int) =
            ((s.rtb.recs[q.record].start - s.acq.cfg.ringBase : Int) + (q.line + i)) % s.acq.cfg.ringLength ∧
          s.rtb.recs[q.record].holds s.acq.cfg row = true)

/-- R10: with a ring length of R7, a command overlaps the ring exactly when a rectangle its kind uses is absolute and one
of its rows is a ring row. -/
def Obligations.RingOverlap : Prop :=
  ∀ (c : Staged) (t : AcqTable), c.named → 16 ≤ t.ringLength →
    (c.overlapsRing t = true ↔
      ∃ q ∈ c.usedCoords, q.relative = false ∧
        ∃ i, i < c.h ∧ t.ringBase ≤ q.line + i ∧ q.line + i < t.ringBase + t.ringLength)

/-! ## The store port -/

/-- R11, R12, R43: with a row commit waiting, an engine access goes before it only if the port is already serving it.
With none in service no element of a block command, one taken after the commit came included, is served; with one in
service the commit waits, and after that one access the commit is next. An element or a commit that the port cannot
serve does not occur (log 6). Left to itself the part does the access and the commit in this order (log 3, 5). -/
def Obligations.CommitServedFirst : Prop :=
  ∀ (s : State) (row : List Word), s.held = false → s.cnv.scan = .presented row →
    ((∀ r, s.ble = .run r → r.busy = false) → ∀ c, isElement c = true → exec c s = .next s) ∧
      (∀ r, s.ble = .run r → r.busy = true → exec .rowCommit s = .next s) ∧
      (∀ c t, isElement c = true → exec c s = .next t →
        t.cnv = s.cnv ∧ (t = s ∨ ∀ r, t.ble = .run r → r.busy = false)) ∧
      (s.pending = [] → s.sweeping = false →
        ∃ before, step s = .next { s with pending := before ++ [.rowCommit] } ∧ (∀ c ∈ before, isElement c = true) ∧
          ((∀ r, s.ble = .run r → r.busy = false) → before = []))
end

