-- ==== Sys2Proof/Laws/Sheet.lean ====
section
/-! SUPPORT. The laws of the sheet: a read after a write, every other address, and the canonical form. -/

namespace Sys2Proof.Machine

theorem Sheet.wfFrom_cons {lo a : Nat} {w : Word} {rest : List (Nat × Word)} :
    Sheet.wfFrom lo ((a, w) :: rest) = true ↔
      lo ≤ a ∧ a < Config.sheetWords ∧ w ≠ voidWord ∧ Sheet.wfFrom (a + 1) rest = true := by
  simp [Sheet.wfFrom, and_assoc]

theorem Sheet.wfFrom_mono {lo hi : Nat} (h : lo ≤ hi) :
    ∀ {cells : List (Nat × Word)}, Sheet.wfFrom hi cells = true → Sheet.wfFrom lo cells = true
  | [], _ => rfl
  | (a, w) :: rest, hw => by
    rw [Sheet.wfFrom_cons] at hw ⊢
    exact ⟨h.trans hw.1, hw.2⟩

/-- Below its first address a canonical list reads as the VOID word. -/
theorem Sheet.read_below {lo k : Nat} (hk : k < lo) :
    ∀ {cells : List (Nat × Word)}, Sheet.wfFrom lo cells = true → Sheet.read cells k = voidWord
  | [], _ => rfl
  | (a, w) :: rest, hw => by
    have := (Sheet.wfFrom_cons.mp hw).1
    rw [Sheet.read, if_pos (by omega)]

theorem Sheet.read_cons_self (a : Nat) (w : Word) {rest : List (Nat × Word)} (h : Sheet.wfFrom (a + 1) rest = true) :
    Sheet.read (Sheet.cons a w rest) a = w := by
  unfold Sheet.cons
  split
  · rw [Sheet.read_below (Nat.lt_succ_self a) h, ‹w = voidWord›]
  · simp [Sheet.read]

theorem Sheet.read_cons_other {a k : Nat} (w : Word) (hk : k ≠ a) {rest : List (Nat × Word)}
    (h : Sheet.wfFrom (a + 1) rest = true) : Sheet.read (Sheet.cons a w rest) k = Sheet.read rest k := by
  unfold Sheet.cons
  split
  · rfl
  · by_cases hlt : k < a
    · rw [Sheet.read, if_pos hlt, Sheet.read_below (by omega) h]
    · rw [Sheet.read, if_neg hlt, if_neg hk]

theorem Sheet.wf_cons {lo a : Nat} {w : Word} {rest : List (Nat × Word)} (hlo : lo ≤ a) (ha : a < Config.sheetWords)
    (h : Sheet.wfFrom (a + 1) rest = true) : Sheet.wfFrom lo (Sheet.cons a w rest) = true := by
  unfold Sheet.cons
  split
  · exact Sheet.wfFrom_mono (by omega) h
  · exact Sheet.wfFrom_cons.mpr ⟨hlo, ha, ‹_›, h⟩

theorem Sheet.wfFrom_write {k : Nat} {v : Word} (hk : k < Config.sheetWords) :
    ∀ {cells : List (Nat × Word)} {lo : Nat}, lo ≤ k → Sheet.wfFrom lo cells = true →
      Sheet.wfFrom lo (Sheet.write cells k v) = true
  | [], _, hlo, _ => Sheet.wf_cons hlo hk rfl
  | (a, w) :: rest, lo, hlo, hw => by
    obtain ⟨h1, h2, h3, h4⟩ := Sheet.wfFrom_cons.mp hw
    unfold Sheet.write
    split
    · exact Sheet.wf_cons hlo hk (Sheet.wfFrom_cons.mpr ⟨by omega, h2, h3, h4⟩)
    · split
      · subst k; exact Sheet.wf_cons hlo hk h4
      · exact Sheet.wfFrom_cons.mpr ⟨h1, h2, h3, Sheet.wfFrom_write hk (by omega) h4⟩

/-- A write keeps the canonical form. -/
theorem Sheet.wf_write {cells : List (Nat × Word)} {k : Nat} {v : Word} (hk : k < Config.sheetWords)
    (h : Sheet.wf cells = true) : Sheet.wf (Sheet.write cells k v) = true :=
  Sheet.wfFrom_write hk (Nat.zero_le k) h

theorem Sheet.read_writeFrom_self {k : Nat} {v : Word} :
    ∀ {cells : List (Nat × Word)} {lo : Nat}, Sheet.wfFrom lo cells = true → Sheet.read (Sheet.write cells k v) k = v
  | [], _, _ => Sheet.read_cons_self k v rfl
  | (a, w) :: rest, lo, hw => by
    obtain ⟨-, h2, h3, h4⟩ := Sheet.wfFrom_cons.mp hw
    unfold Sheet.write
    split
    · exact Sheet.read_cons_self k v (Sheet.wfFrom_cons.mpr ⟨by omega, h2, h3, h4⟩)
    · split
      · subst k; exact Sheet.read_cons_self a v h4
      · rw [Sheet.read, if_neg ‹_›, if_neg ‹_›]; exact Sheet.read_writeFrom_self h4

/-- A read after a write to the same address gives the word written. -/
theorem Sheet.read_write_self {cells : List (Nat × Word)} (h : Sheet.wf cells = true) (k : Nat) (v : Word) :
    Sheet.read (Sheet.write cells k v) k = v :=
  Sheet.read_writeFrom_self h

theorem Sheet.read_writeFrom_other {k j : Nat} {v : Word} (hj : j ≠ k) :
    ∀ {cells : List (Nat × Word)} {lo : Nat}, Sheet.wfFrom lo cells = true →
      Sheet.read (Sheet.write cells k v) j = Sheet.read cells j
  | [], _, _ => Sheet.read_cons_other v hj rfl
  | (a, w) :: rest, lo, hw => by
    obtain ⟨-, h2, h3, h4⟩ := Sheet.wfFrom_cons.mp hw
    unfold Sheet.write
    split
    · exact Sheet.read_cons_other v hj (Sheet.wfFrom_cons.mpr ⟨by omega, h2, h3, h4⟩)
    · split
      · subst k
        rw [Sheet.read_cons_other v hj h4, Sheet.read]
        split
        · exact Sheet.read_below (by omega) h4
        · rfl
      · simp only [Sheet.read]
        rw [Sheet.read_writeFrom_other hj h4]

/-- A write leaves every other address alone. -/
theorem Sheet.read_write_other {cells : List (Nat × Word)} (h : Sheet.wf cells = true) {k j : Nat} (v : Word)
    (hj : j ≠ k) : Sheet.read (Sheet.write cells k v) j = Sheet.read cells j :=
  Sheet.read_writeFrom_other hj h

/-- The first `m` writes of a row keep the canonical form, put `f j` in column `j` and leave the rest alone. -/
theorem Sheet.writeCols {cells : List (Nat × Word)} (h : Sheet.wf cells = true) {row : Nat}
    (hr : row < Config.sheetRows) (f : Nat → Word) :
    ∀ m ≤ Config.sheetCols,
      Sheet.wf ((List.range m).foldl (fun c j => Sheet.write c (Config.sheetCols * row + j) (f j)) cells) = true ∧
        ∀ a,
          Sheet.read ((List.range m).foldl (fun c j => Sheet.write c (Config.sheetCols * row + j) (f j)) cells) a =
            if Config.sheetCols * row ≤ a ∧ a < Config.sheetCols * row + m then f (a - Config.sheetCols * row)
            else Sheet.read cells a
  | 0, _ => ⟨h, fun a => by rw [if_neg (by omega)]; rfl⟩
  | m + 1, hm => by
    obtain ⟨hw, hread⟩ := Sheet.writeCols h hr f m (by omega)
    have hk : Config.sheetCols * row + m < Config.sheetWords := by
      simp only [Config.sheetCols, Config.sheetRows, Config.sheetWords] at *; omega
    rw [List.range_succ, List.foldl_append]
    refine ⟨Sheet.wf_write hk hw, fun a => ?_⟩
    simp only [List.foldl_cons, List.foldl_nil]
    by_cases ha : a = Config.sheetCols * row + m
    · subst ha
      rw [Sheet.read_write_self hw, if_pos (by omega), Nat.add_sub_cancel_left]
    · rw [Sheet.read_write_other hw _ ha, hread a]
      by_cases hc : Config.sheetCols * row ≤ a ∧ a < Config.sheetCols * row + m
      · rw [if_pos hc, if_pos (by omega)]
      · rw [if_neg hc, if_neg (by omega)]

/-- Writing a row keeps the canonical form. -/
theorem Sheet.wf_writeRow {cells : List (Nat × Word)} (h : Sheet.wf cells = true) {row : Nat}
    (hr : row < Config.sheetRows) (f : Nat → Word) : Sheet.wf (Sheet.writeRow cells row f) = true :=
  (Sheet.writeCols h hr f _ le_rfl).1

/-- Writing a row puts `f j` in its column `j` and leaves every other row alone. -/
theorem Sheet.read_writeRow {cells : List (Nat × Word)} (h : Sheet.wf cells = true) {row : Nat}
    (hr : row < Config.sheetRows) (f : Nat → Word) (a : Nat) :
    Sheet.read (Sheet.writeRow cells row f) a =
      if Config.sheetCols * row ≤ a ∧ a < Config.sheetCols * row + Config.sheetCols then
        f (a - Config.sheetCols * row)
      else Sheet.read cells a :=
  (Sheet.writeCols h hr f _ le_rfl).2 a

end Sys2Proof.Machine
end

