-- ==== Sys2Proof/Laws/State.lean ====
section
/-! SUPPORT. What each named update of the state does to each block of the state, so that no proof unfolds a record
update. -/

namespace Sys2Proof.Machine

variable (s : State)

@[simp] theorem State.store_sst (a : Nat) (w : Word) : (s.store a w).sst = { s.sst with cells := Sheet.write s.sst.cells a w } := rfl
@[simp] theorem State.store_stm (a : Nat) (w : Word) : (s.store a w).stm = s.stm := rfl
@[simp] theorem State.store_cnv (a : Nat) (w : Word) : (s.store a w).cnv = s.cnv := rfl
@[simp] theorem State.store_acq (a : Nat) (w : Word) : (s.store a w).acq = s.acq := rfl
@[simp] theorem State.store_tru (a : Nat) (w : Word) : (s.store a w).tru = s.tru := rfl
@[simp] theorem State.store_rtb (a : Nat) (w : Word) : (s.store a w).rtb = s.rtb := rfl
@[simp] theorem State.store_cq (a : Nat) (w : Word) : (s.store a w).cq = s.cq := rfl
@[simp] theorem State.store_rq (a : Nat) (w : Word) : (s.store a w).rq = s.rq := rfl
@[simp] theorem State.store_ble (a : Nat) (w : Word) : (s.store a w).ble = s.ble := rfl
@[simp] theorem State.store_xf (a : Nat) (w : Word) : (s.store a w).xf = s.xf := rfl
@[simp] theorem State.store_evu (a : Nat) (w : Word) : (s.store a w).evu = s.evu := rfl
@[simp] theorem State.store_hpi (a : Nat) (w : Word) : (s.store a w).hpi = s.hpi := rfl
@[simp] theorem State.store_held (a : Nat) (w : Word) : (s.store a w).held = s.held := rfl
@[simp] theorem State.store_busData (a : Nat) (w : Word) : (s.store a w).busData = s.busData := rfl
@[simp] theorem State.store_conversions (a : Nat) (w : Word) : (s.store a w).conversions = s.conversions := rfl
@[simp] theorem State.store_pending (a : Nat) (w : Word) : (s.store a w).pending = s.pending := rfl

@[simp] theorem State.setSticky_sst (f : Sticky) : (s.setSticky f).sst = s.sst := rfl
@[simp] theorem State.setSticky_stm (f : Sticky) : (s.setSticky f).stm = s.stm := rfl
@[simp] theorem State.setSticky_cnv (f : Sticky) : (s.setSticky f).cnv = s.cnv := rfl
@[simp] theorem State.setSticky_acq (f : Sticky) : (s.setSticky f).acq = s.acq := rfl
@[simp] theorem State.setSticky_tru (f : Sticky) : (s.setSticky f).tru = s.tru := rfl
@[simp] theorem State.setSticky_rtb (f : Sticky) : (s.setSticky f).rtb = s.rtb := rfl
@[simp] theorem State.setSticky_cq (f : Sticky) : (s.setSticky f).cq = s.cq := rfl
@[simp] theorem State.setSticky_rq (f : Sticky) : (s.setSticky f).rq = s.rq := rfl
@[simp] theorem State.setSticky_ble (f : Sticky) : (s.setSticky f).ble = s.ble := rfl
@[simp] theorem State.setSticky_xf (f : Sticky) : (s.setSticky f).xf = s.xf := rfl
@[simp] theorem State.setSticky_evu (f : Sticky) : (s.setSticky f).evu = { s.evu with sticky := f } := rfl
@[simp] theorem State.setSticky_hpi (f : Sticky) : (s.setSticky f).hpi = s.hpi := rfl
@[simp] theorem State.setSticky_held (f : Sticky) : (s.setSticky f).held = s.held := rfl
@[simp] theorem State.setSticky_busData (f : Sticky) : (s.setSticky f).busData = s.busData := rfl
@[simp] theorem State.setSticky_conversions (f : Sticky) : (s.setSticky f).conversions = s.conversions := rfl
@[simp] theorem State.setSticky_pending (f : Sticky) : (s.setSticky f).pending = s.pending := rfl

@[simp] theorem State.setAccess_sst : (s.setAccess).sst = s.sst := rfl
@[simp] theorem State.setAccess_stm : (s.setAccess).stm = s.stm := rfl
@[simp] theorem State.setAccess_cnv : (s.setAccess).cnv = s.cnv := rfl
@[simp] theorem State.setAccess_acq : (s.setAccess).acq = s.acq := rfl
@[simp] theorem State.setAccess_tru : (s.setAccess).tru = s.tru := rfl
@[simp] theorem State.setAccess_rtb : (s.setAccess).rtb = s.rtb := rfl
@[simp] theorem State.setAccess_cq : (s.setAccess).cq = s.cq := rfl
@[simp] theorem State.setAccess_rq : (s.setAccess).rq = s.rq := rfl
@[simp] theorem State.setAccess_ble : (s.setAccess).ble = s.ble := rfl
@[simp] theorem State.setAccess_xf : (s.setAccess).xf = s.xf := rfl
@[simp] theorem State.setAccess_evu : (s.setAccess).evu = { s.evu with sticky := { s.evu.sticky with access := true } } := rfl
@[simp] theorem State.setAccess_hpi : (s.setAccess).hpi = s.hpi := rfl
@[simp] theorem State.setAccess_held : (s.setAccess).held = s.held := rfl
@[simp] theorem State.setAccess_busData : (s.setAccess).busData = s.busData := rfl
@[simp] theorem State.setAccess_conversions : (s.setAccess).conversions = s.conversions := rfl
@[simp] theorem State.setAccess_pending : (s.setAccess).pending = s.pending := rfl

@[simp] theorem State.setXunder_sst : (s.setXunder).sst = s.sst := rfl
@[simp] theorem State.setXunder_stm : (s.setXunder).stm = s.stm := rfl
@[simp] theorem State.setXunder_cnv : (s.setXunder).cnv = s.cnv := rfl
@[simp] theorem State.setXunder_acq : (s.setXunder).acq = s.acq := rfl
@[simp] theorem State.setXunder_tru : (s.setXunder).tru = s.tru := rfl
@[simp] theorem State.setXunder_rtb : (s.setXunder).rtb = s.rtb := rfl
@[simp] theorem State.setXunder_cq : (s.setXunder).cq = s.cq := rfl
@[simp] theorem State.setXunder_rq : (s.setXunder).rq = s.rq := rfl
@[simp] theorem State.setXunder_ble : (s.setXunder).ble = s.ble := rfl
@[simp] theorem State.setXunder_xf : (s.setXunder).xf = s.xf := rfl
@[simp] theorem State.setXunder_evu : (s.setXunder).evu = { s.evu with sticky := { s.evu.sticky with xunder := true } } := rfl
@[simp] theorem State.setXunder_hpi : (s.setXunder).hpi = s.hpi := rfl
@[simp] theorem State.setXunder_held : (s.setXunder).held = s.held := rfl
@[simp] theorem State.setXunder_busData : (s.setXunder).busData = s.busData := rfl
@[simp] theorem State.setXunder_conversions : (s.setXunder).conversions = s.conversions := rfl
@[simp] theorem State.setXunder_pending : (s.setXunder).pending = s.pending := rfl

@[simp] theorem State.setXover_sst : (s.setXover).sst = s.sst := rfl
@[simp] theorem State.setXover_stm : (s.setXover).stm = s.stm := rfl
@[simp] theorem State.setXover_cnv : (s.setXover).cnv = s.cnv := rfl
@[simp] theorem State.setXover_acq : (s.setXover).acq = s.acq := rfl
@[simp] theorem State.setXover_tru : (s.setXover).tru = s.tru := rfl
@[simp] theorem State.setXover_rtb : (s.setXover).rtb = s.rtb := rfl
@[simp] theorem State.setXover_cq : (s.setXover).cq = s.cq := rfl
@[simp] theorem State.setXover_rq : (s.setXover).rq = s.rq := rfl
@[simp] theorem State.setXover_ble : (s.setXover).ble = s.ble := rfl
@[simp] theorem State.setXover_xf : (s.setXover).xf = s.xf := rfl
@[simp] theorem State.setXover_evu : (s.setXover).evu = { s.evu with sticky := { s.evu.sticky with xover := true } } := rfl
@[simp] theorem State.setXover_hpi : (s.setXover).hpi = s.hpi := rfl
@[simp] theorem State.setXover_held : (s.setXover).held = s.held := rfl
@[simp] theorem State.setXover_busData : (s.setXover).busData = s.busData := rfl
@[simp] theorem State.setXover_conversions : (s.setXover).conversions = s.conversions := rfl
@[simp] theorem State.setXover_pending : (s.setXover).pending = s.pending := rfl

@[simp] theorem State.promote_sst : (s.promote).sst = s.sst := rfl
@[simp] theorem State.promote_stm : (s.promote).stm = { s.stm with active := periodTicks s.acq.cfg.period } := rfl
@[simp] theorem State.promote_cnv : (s.promote).cnv = s.cnv := rfl
@[simp] theorem State.promote_acq : (s.promote).acq = s.acq := rfl
@[simp] theorem State.promote_tru : (s.promote).tru = s.tru := rfl
@[simp] theorem State.promote_rtb : (s.promote).rtb = s.rtb := rfl
@[simp] theorem State.promote_cq : (s.promote).cq = s.cq := rfl
@[simp] theorem State.promote_rq : (s.promote).rq = s.rq := rfl
@[simp] theorem State.promote_ble : (s.promote).ble = s.ble := rfl
@[simp] theorem State.promote_xf : (s.promote).xf = s.xf := rfl
@[simp] theorem State.promote_evu : (s.promote).evu = s.evu := rfl
@[simp] theorem State.promote_hpi : (s.promote).hpi = s.hpi := rfl
@[simp] theorem State.promote_held : (s.promote).held = s.held := rfl
@[simp] theorem State.promote_busData : (s.promote).busData = s.busData := rfl
@[simp] theorem State.promote_conversions : (s.promote).conversions = s.conversions := rfl
@[simp] theorem State.promote_pending : (s.promote).pending = s.pending := rfl

@[simp] theorem State.startTimer_sst : (s.startTimer).sst = s.sst := rfl
@[simp] theorem State.startTimer_stm : (s.startTimer).stm = { s.stm with counter := s.stm.active, prescale := 0 } := rfl
@[simp] theorem State.startTimer_cnv : (s.startTimer).cnv = s.cnv := rfl
@[simp] theorem State.startTimer_acq : (s.startTimer).acq = s.acq := rfl
@[simp] theorem State.startTimer_tru : (s.startTimer).tru = s.tru := rfl
@[simp] theorem State.startTimer_rtb : (s.startTimer).rtb = s.rtb := rfl
@[simp] theorem State.startTimer_cq : (s.startTimer).cq = s.cq := rfl
@[simp] theorem State.startTimer_rq : (s.startTimer).rq = s.rq := rfl
@[simp] theorem State.startTimer_ble : (s.startTimer).ble = s.ble := rfl
@[simp] theorem State.startTimer_xf : (s.startTimer).xf = s.xf := rfl
@[simp] theorem State.startTimer_evu : (s.startTimer).evu = s.evu := rfl
@[simp] theorem State.startTimer_hpi : (s.startTimer).hpi = s.hpi := rfl
@[simp] theorem State.startTimer_held : (s.startTimer).held = s.held := rfl
@[simp] theorem State.startTimer_busData : (s.startTimer).busData = s.busData := rfl
@[simp] theorem State.startTimer_conversions : (s.startTimer).conversions = s.conversions := rfl
@[simp] theorem State.startTimer_pending : (s.startTimer).pending = s.pending := rfl

@[simp] theorem State.setRec_sst (n : Fin 8) (d : Descriptor) : (s.setRec n d).sst = s.sst := rfl
@[simp] theorem State.setRec_stm (n : Fin 8) (d : Descriptor) : (s.setRec n d).stm = s.stm := rfl
@[simp] theorem State.setRec_cnv (n : Fin 8) (d : Descriptor) : (s.setRec n d).cnv = s.cnv := rfl
@[simp] theorem State.setRec_acq (n : Fin 8) (d : Descriptor) : (s.setRec n d).acq = s.acq := rfl
@[simp] theorem State.setRec_tru (n : Fin 8) (d : Descriptor) : (s.setRec n d).tru = s.tru := rfl
@[simp] theorem State.setRec_rtb (n : Fin 8) (d : Descriptor) : (s.setRec n d).rtb = { s.rtb with recs := s.rtb.recs.set n d } := rfl
@[simp] theorem State.setRec_cq (n : Fin 8) (d : Descriptor) : (s.setRec n d).cq = s.cq := rfl
@[simp] theorem State.setRec_rq (n : Fin 8) (d : Descriptor) : (s.setRec n d).rq = s.rq := rfl
@[simp] theorem State.setRec_ble (n : Fin 8) (d : Descriptor) : (s.setRec n d).ble = s.ble := rfl
@[simp] theorem State.setRec_xf (n : Fin 8) (d : Descriptor) : (s.setRec n d).xf = s.xf := rfl
@[simp] theorem State.setRec_evu (n : Fin 8) (d : Descriptor) : (s.setRec n d).evu = s.evu := rfl
@[simp] theorem State.setRec_hpi (n : Fin 8) (d : Descriptor) : (s.setRec n d).hpi = s.hpi := rfl
@[simp] theorem State.setRec_held (n : Fin 8) (d : Descriptor) : (s.setRec n d).held = s.held := rfl
@[simp] theorem State.setRec_busData (n : Fin 8) (d : Descriptor) : (s.setRec n d).busData = s.busData := rfl
@[simp] theorem State.setRec_conversions (n : Fin 8) (d : Descriptor) : (s.setRec n d).conversions = s.conversions := rfl
@[simp] theorem State.setRec_pending (n : Fin 8) (d : Descriptor) : (s.setRec n d).pending = s.pending := rfl

@[simp] theorem State.countDrop_sst : (s.countDrop).sst = s.sst := rfl
@[simp] theorem State.countDrop_stm : (s.countDrop).stm = s.stm := rfl
@[simp] theorem State.countDrop_cnv : (s.countDrop).cnv = s.cnv := rfl
@[simp] theorem State.countDrop_acq : (s.countDrop).acq = { s.acq with dropped := Nat.min (s.acq.dropped + 1) 65535 } := rfl
@[simp] theorem State.countDrop_tru : (s.countDrop).tru = s.tru := rfl
@[simp] theorem State.countDrop_rtb : (s.countDrop).rtb = s.rtb := rfl
@[simp] theorem State.countDrop_cq : (s.countDrop).cq = s.cq := rfl
@[simp] theorem State.countDrop_rq : (s.countDrop).rq = s.rq := rfl
@[simp] theorem State.countDrop_ble : (s.countDrop).ble = s.ble := rfl
@[simp] theorem State.countDrop_xf : (s.countDrop).xf = s.xf := rfl
@[simp] theorem State.countDrop_evu : (s.countDrop).evu = s.evu := rfl
@[simp] theorem State.countDrop_hpi : (s.countDrop).hpi = s.hpi := rfl
@[simp] theorem State.countDrop_held : (s.countDrop).held = s.held := rfl
@[simp] theorem State.countDrop_busData : (s.countDrop).busData = s.busData := rfl
@[simp] theorem State.countDrop_conversions : (s.countDrop).conversions = s.conversions := rfl
@[simp] theorem State.countDrop_pending : (s.countDrop).pending = s.pending := rfl

@[simp] theorem State.allocate_sst (n : Fin 8) : (s.allocate n).sst = s.sst := rfl
@[simp] theorem State.allocate_stm (n : Fin 8) : (s.allocate n).stm = s.stm := rfl
@[simp] theorem State.allocate_cnv (n : Fin 8) : (s.allocate n).cnv = s.cnv := rfl
@[simp] theorem State.allocate_acq (n : Fin 8) : (s.allocate n).acq = { s.acq with state := s.acq.cfg.entry n } := rfl
@[simp] theorem State.allocate_tru (n : Fin 8) : (s.allocate n).tru = { s.tru with flagged := false, count := 0 } := rfl
@[simp] theorem State.allocate_rtb (n : Fin 8) : (s.allocate n).rtb = { s.rtb with recs := s.rtb.recs.set n (Descriptor.fresh s.acq.writer s.acq.cfg.listLength) } := rfl
@[simp] theorem State.allocate_cq (n : Fin 8) : (s.allocate n).cq = s.cq := rfl
@[simp] theorem State.allocate_rq (n : Fin 8) : (s.allocate n).rq = s.rq := rfl
@[simp] theorem State.allocate_ble (n : Fin 8) : (s.allocate n).ble = s.ble := rfl
@[simp] theorem State.allocate_xf (n : Fin 8) : (s.allocate n).xf = s.xf := rfl
@[simp] theorem State.allocate_evu (n : Fin 8) : (s.allocate n).evu = s.evu := rfl
@[simp] theorem State.allocate_hpi (n : Fin 8) : (s.allocate n).hpi = s.hpi := rfl
@[simp] theorem State.allocate_held (n : Fin 8) : (s.allocate n).held = s.held := rfl
@[simp] theorem State.allocate_busData (n : Fin 8) : (s.allocate n).busData = s.busData := rfl
@[simp] theorem State.allocate_conversions (n : Fin 8) : (s.allocate n).conversions = s.conversions := rfl
@[simp] theorem State.allocate_pending (n : Fin 8) : (s.allocate n).pending = s.pending := rfl

@[simp] theorem State.sealRec_sst (n : Fin 8) (b : Bool) : (s.sealRec n b).sst = s.sst := rfl
@[simp] theorem State.sealRec_stm (n : Fin 8) (b : Bool) : (s.sealRec n b).stm = s.stm := rfl
@[simp] theorem State.sealRec_cnv (n : Fin 8) (b : Bool) : (s.sealRec n b).cnv = s.cnv := rfl
@[simp] theorem State.sealRec_acq (n : Fin 8) (b : Bool) : (s.sealRec n b).acq = s.acq := rfl
@[simp] theorem State.sealRec_tru (n : Fin 8) (b : Bool) : (s.sealRec n b).tru = s.tru := rfl
@[simp] theorem State.sealRec_rtb (n : Fin 8) (b : Bool) : (s.sealRec n b).rtb = { recs := s.rtb.recs.set n { s.rtb.recs[n] with state := .sealed, truncated := b, pins := 0 }, order := s.rtb.order ++ [n] } := rfl
@[simp] theorem State.sealRec_cq (n : Fin 8) (b : Bool) : (s.sealRec n b).cq = s.cq := rfl
@[simp] theorem State.sealRec_rq (n : Fin 8) (b : Bool) : (s.sealRec n b).rq = s.rq := rfl
@[simp] theorem State.sealRec_ble (n : Fin 8) (b : Bool) : (s.sealRec n b).ble = s.ble := rfl
@[simp] theorem State.sealRec_xf (n : Fin 8) (b : Bool) : (s.sealRec n b).xf = s.xf := rfl
@[simp] theorem State.sealRec_evu (n : Fin 8) (b : Bool) : (s.sealRec n b).evu = { s.evu with sticky := { s.evu.sticky with sealed := true } } := rfl
@[simp] theorem State.sealRec_hpi (n : Fin 8) (b : Bool) : (s.sealRec n b).hpi = s.hpi := rfl
@[simp] theorem State.sealRec_held (n : Fin 8) (b : Bool) : (s.sealRec n b).held = s.held := rfl
@[simp] theorem State.sealRec_busData (n : Fin 8) (b : Bool) : (s.sealRec n b).busData = s.busData := rfl
@[simp] theorem State.sealRec_conversions (n : Fin 8) (b : Bool) : (s.sealRec n b).conversions = s.conversions := rfl
@[simp] theorem State.sealRec_pending (n : Fin 8) (b : Bool) : (s.sealRec n b).pending = s.pending := rfl

@[simp] theorem State.halt_sst (st : AcqState) : (s.halt st).sst = s.sst := rfl
@[simp] theorem State.halt_stm (st : AcqState) : (s.halt st).stm = { s.stm with active := periodTicks s.acq.cfg.period } := rfl
@[simp] theorem State.halt_cnv (st : AcqState) : (s.halt st).cnv = s.cnv := rfl
@[simp] theorem State.halt_acq (st : AcqState) : (s.halt st).acq = { s.acq with state := st } := rfl
@[simp] theorem State.halt_tru (st : AcqState) : (s.halt st).tru = s.tru := rfl
@[simp] theorem State.halt_rtb (st : AcqState) : (s.halt st).rtb = s.rtb := rfl
@[simp] theorem State.halt_cq (st : AcqState) : (s.halt st).cq = s.cq := rfl
@[simp] theorem State.halt_rq (st : AcqState) : (s.halt st).rq = s.rq := rfl
@[simp] theorem State.halt_ble (st : AcqState) : (s.halt st).ble = s.ble := rfl
@[simp] theorem State.halt_xf (st : AcqState) : (s.halt st).xf = s.xf := rfl
@[simp] theorem State.halt_evu (st : AcqState) : (s.halt st).evu = s.evu := rfl
@[simp] theorem State.halt_hpi (st : AcqState) : (s.halt st).hpi = s.hpi := rfl
@[simp] theorem State.halt_held (st : AcqState) : (s.halt st).held = s.held := rfl
@[simp] theorem State.halt_busData (st : AcqState) : (s.halt st).busData = s.busData := rfl
@[simp] theorem State.halt_conversions (st : AcqState) : (s.halt st).conversions = s.conversions := rfl
@[simp] theorem State.halt_pending (st : AcqState) : (s.halt st).pending = s.pending := rfl

@[simp] theorem State.freeRec_sst (n : Fin 8) : (s.freeRec n).sst = s.sst := rfl
@[simp] theorem State.freeRec_stm (n : Fin 8) : (s.freeRec n).stm = s.stm := rfl
@[simp] theorem State.freeRec_cnv (n : Fin 8) : (s.freeRec n).cnv = s.cnv := rfl
@[simp] theorem State.freeRec_acq (n : Fin 8) : (s.freeRec n).acq = s.acq := rfl
@[simp] theorem State.freeRec_tru (n : Fin 8) : (s.freeRec n).tru = s.tru := rfl
@[simp] theorem State.freeRec_rtb (n : Fin 8) : (s.freeRec n).rtb = { recs := s.rtb.recs.set n Descriptor.free, order := s.rtb.order.filter (· != n) } := rfl
@[simp] theorem State.freeRec_cq (n : Fin 8) : (s.freeRec n).cq = s.cq := rfl
@[simp] theorem State.freeRec_rq (n : Fin 8) : (s.freeRec n).rq = s.rq := rfl
@[simp] theorem State.freeRec_ble (n : Fin 8) : (s.freeRec n).ble = s.ble := rfl
@[simp] theorem State.freeRec_xf (n : Fin 8) : (s.freeRec n).xf = s.xf := rfl
@[simp] theorem State.freeRec_evu (n : Fin 8) : (s.freeRec n).evu = s.evu := rfl
@[simp] theorem State.freeRec_hpi (n : Fin 8) : (s.freeRec n).hpi = s.hpi := rfl
@[simp] theorem State.freeRec_held (n : Fin 8) : (s.freeRec n).held = s.held := rfl
@[simp] theorem State.freeRec_busData (n : Fin 8) : (s.freeRec n).busData = s.busData := rfl
@[simp] theorem State.freeRec_conversions (n : Fin 8) : (s.freeRec n).conversions = s.conversions := rfl
@[simp] theorem State.freeRec_pending (n : Fin 8) : (s.freeRec n).pending = s.pending := rfl

@[simp] theorem State.post_sst (c : Staged) (st : Status) (p : Nat) (d : Detail) : (s.post c st p d).sst = s.sst := rfl
@[simp] theorem State.post_stm (c : Staged) (st : Status) (p : Nat) (d : Detail) : (s.post c st p d).stm = s.stm := rfl
@[simp] theorem State.post_cnv (c : Staged) (st : Status) (p : Nat) (d : Detail) : (s.post c st p d).cnv = s.cnv := rfl
@[simp] theorem State.post_acq (c : Staged) (st : Status) (p : Nat) (d : Detail) : (s.post c st p d).acq = s.acq := rfl
@[simp] theorem State.post_tru (c : Staged) (st : Status) (p : Nat) (d : Detail) : (s.post c st p d).tru = s.tru := rfl
@[simp] theorem State.post_rtb (c : Staged) (st : Status) (p : Nat) (d : Detail) : (s.post c st p d).rtb = s.rtb.unpin c.refs := rfl
@[simp] theorem State.post_cq (c : Staged) (st : Status) (p : Nat) (d : Detail) : (s.post c st p d).cq = s.cq := rfl
@[simp] theorem State.post_rq (c : Staged) (st : Status) (p : Nat) (d : Detail) : (s.post c st p d).rq = fillPending (c.entry st p d) s.rq := rfl
@[simp] theorem State.post_ble (c : Staged) (st : Status) (p : Nat) (d : Detail) : (s.post c st p d).ble = .idle := rfl
@[simp] theorem State.post_xf (c : Staged) (st : Status) (p : Nat) (d : Detail) : (s.post c st p d).xf = s.xf := rfl
@[simp] theorem State.post_evu (c : Staged) (st : Status) (p : Nat) (d : Detail) : (s.post c st p d).evu = s.evu := rfl
@[simp] theorem State.post_hpi (c : Staged) (st : Status) (p : Nat) (d : Detail) : (s.post c st p d).hpi = s.hpi := rfl
@[simp] theorem State.post_held (c : Staged) (st : Status) (p : Nat) (d : Detail) : (s.post c st p d).held = s.held := rfl
@[simp] theorem State.post_busData (c : Staged) (st : Status) (p : Nat) (d : Detail) : (s.post c st p d).busData = s.busData := rfl
@[simp] theorem State.post_conversions (c : Staged) (st : Status) (p : Nat) (d : Detail) : (s.post c st p d).conversions = s.conversions := rfl
@[simp] theorem State.post_pending (c : Staged) (st : Status) (p : Nat) (d : Detail) : (s.post c st p d).pending = s.pending := rfl

@[simp] theorem State.emptyXf_sst : (s.emptyXf).sst = s.sst := rfl
@[simp] theorem State.emptyXf_stm : (s.emptyXf).stm = s.stm := rfl
@[simp] theorem State.emptyXf_cnv : (s.emptyXf).cnv = s.cnv := rfl
@[simp] theorem State.emptyXf_acq : (s.emptyXf).acq = s.acq := rfl
@[simp] theorem State.emptyXf_tru : (s.emptyXf).tru = s.tru := rfl
@[simp] theorem State.emptyXf_rtb : (s.emptyXf).rtb = s.rtb := rfl
@[simp] theorem State.emptyXf_cq : (s.emptyXf).cq = s.cq := rfl
@[simp] theorem State.emptyXf_rq : (s.emptyXf).rq = s.rq := rfl
@[simp] theorem State.emptyXf_ble : (s.emptyXf).ble = s.ble := rfl
@[simp] theorem State.emptyXf_xf : (s.emptyXf).xf = { s.xf with words := [], timeout := none } := rfl
@[simp] theorem State.emptyXf_evu : (s.emptyXf).evu = s.evu := rfl
@[simp] theorem State.emptyXf_hpi : (s.emptyXf).hpi = s.hpi := rfl
@[simp] theorem State.emptyXf_held : (s.emptyXf).held = s.held := rfl
@[simp] theorem State.emptyXf_busData : (s.emptyXf).busData = s.busData := rfl
@[simp] theorem State.emptyXf_conversions : (s.emptyXf).conversions = s.conversions := rfl
@[simp] theorem State.emptyXf_pending : (s.emptyXf).pending = s.pending := rfl

@[simp] theorem State.toRun_sst (r : Running) (ws : List Word) : (s.toRun r ws).sst = s.sst := rfl
@[simp] theorem State.toRun_stm (r : Running) (ws : List Word) : (s.toRun r ws).stm = s.stm := rfl
@[simp] theorem State.toRun_cnv (r : Running) (ws : List Word) : (s.toRun r ws).cnv = s.cnv := rfl
@[simp] theorem State.toRun_acq (r : Running) (ws : List Word) : (s.toRun r ws).acq = s.acq := rfl
@[simp] theorem State.toRun_tru (r : Running) (ws : List Word) : (s.toRun r ws).tru = s.tru := rfl
@[simp] theorem State.toRun_rtb (r : Running) (ws : List Word) : (s.toRun r ws).rtb = s.rtb := rfl
@[simp] theorem State.toRun_cq (r : Running) (ws : List Word) : (s.toRun r ws).cq = s.cq := rfl
@[simp] theorem State.toRun_rq (r : Running) (ws : List Word) : (s.toRun r ws).rq = s.rq := rfl
@[simp] theorem State.toRun_ble (r : Running) (ws : List Word) : (s.toRun r ws).ble = .run r := rfl
@[simp] theorem State.toRun_xf (r : Running) (ws : List Word) : (s.toRun r ws).xf = { s.xf with words := ws, timeout := none } := rfl
@[simp] theorem State.toRun_evu (r : Running) (ws : List Word) : (s.toRun r ws).evu = s.evu := rfl
@[simp] theorem State.toRun_hpi (r : Running) (ws : List Word) : (s.toRun r ws).hpi = s.hpi := rfl
@[simp] theorem State.toRun_held (r : Running) (ws : List Word) : (s.toRun r ws).held = s.held := rfl
@[simp] theorem State.toRun_busData (r : Running) (ws : List Word) : (s.toRun r ws).busData = s.busData := rfl
@[simp] theorem State.toRun_conversions (r : Running) (ws : List Word) : (s.toRun r ws).conversions = s.conversions := rfl
@[simp] theorem State.toRun_pending (r : Running) (ws : List Word) : (s.toRun r ws).pending = s.pending := rfl

@[simp] theorem State.toXwait_sst (r : Running) (ws : List Word) : (s.toXwait r ws).sst = s.sst := rfl
@[simp] theorem State.toXwait_stm (r : Running) (ws : List Word) : (s.toXwait r ws).stm = s.stm := rfl
@[simp] theorem State.toXwait_cnv (r : Running) (ws : List Word) : (s.toXwait r ws).cnv = s.cnv := rfl
@[simp] theorem State.toXwait_acq (r : Running) (ws : List Word) : (s.toXwait r ws).acq = s.acq := rfl
@[simp] theorem State.toXwait_tru (r : Running) (ws : List Word) : (s.toXwait r ws).tru = s.tru := rfl
@[simp] theorem State.toXwait_rtb (r : Running) (ws : List Word) : (s.toXwait r ws).rtb = s.rtb := rfl
@[simp] theorem State.toXwait_cq (r : Running) (ws : List Word) : (s.toXwait r ws).cq = s.cq := rfl
@[simp] theorem State.toXwait_rq (r : Running) (ws : List Word) : (s.toXwait r ws).rq = s.rq := rfl
@[simp] theorem State.toXwait_ble (r : Running) (ws : List Word) : (s.toXwait r ws).ble = .xwait r := rfl
@[simp] theorem State.toXwait_xf (r : Running) (ws : List Word) : (s.toXwait r ws).xf = { s.xf with words := ws, timeout := s.timeoutStart } := rfl
@[simp] theorem State.toXwait_evu (r : Running) (ws : List Word) : (s.toXwait r ws).evu = s.evu := rfl
@[simp] theorem State.toXwait_hpi (r : Running) (ws : List Word) : (s.toXwait r ws).hpi = s.hpi := rfl
@[simp] theorem State.toXwait_held (r : Running) (ws : List Word) : (s.toXwait r ws).held = s.held := rfl
@[simp] theorem State.toXwait_busData (r : Running) (ws : List Word) : (s.toXwait r ws).busData = s.busData := rfl
@[simp] theorem State.toXwait_conversions (r : Running) (ws : List Word) : (s.toXwait r ws).conversions = s.conversions := rfl
@[simp] theorem State.toXwait_pending (r : Running) (ws : List Word) : (s.toXwait r ws).pending = s.pending := rfl

@[simp] theorem State.outcome_sst (code : BitVec 4) (r : Reason) : (s.outcome code r).sst = s.sst := rfl
@[simp] theorem State.outcome_stm (code : BitVec 4) (r : Reason) : (s.outcome code r).stm = s.stm := rfl
@[simp] theorem State.outcome_cnv (code : BitVec 4) (r : Reason) : (s.outcome code r).cnv = s.cnv := rfl
@[simp] theorem State.outcome_acq (code : BitVec 4) (r : Reason) : (s.outcome code r).acq = s.acq := rfl
@[simp] theorem State.outcome_tru (code : BitVec 4) (r : Reason) : (s.outcome code r).tru = s.tru := rfl
@[simp] theorem State.outcome_rtb (code : BitVec 4) (r : Reason) : (s.outcome code r).rtb = s.rtb := rfl
@[simp] theorem State.outcome_cq (code : BitVec 4) (r : Reason) : (s.outcome code r).cq = s.cq := rfl
@[simp] theorem State.outcome_rq (code : BitVec 4) (r : Reason) : (s.outcome code r).rq = s.rq := rfl
@[simp] theorem State.outcome_ble (code : BitVec 4) (r : Reason) : (s.outcome code r).ble = s.ble := rfl
@[simp] theorem State.outcome_xf (code : BitVec 4) (r : Reason) : (s.outcome code r).xf = s.xf := rfl
@[simp] theorem State.outcome_evu (code : BitVec 4) (r : Reason) : (s.outcome code r).evu = s.evu := rfl
@[simp] theorem State.outcome_hpi (code : BitVec 4) (r : Reason) : (s.outcome code r).hpi = { s.hpi with code := code, reason := r } := rfl
@[simp] theorem State.outcome_held (code : BitVec 4) (r : Reason) : (s.outcome code r).held = s.held := rfl
@[simp] theorem State.outcome_busData (code : BitVec 4) (r : Reason) : (s.outcome code r).busData = s.busData := rfl
@[simp] theorem State.outcome_conversions (code : BitVec 4) (r : Reason) : (s.outcome code r).conversions = s.conversions := rfl
@[simp] theorem State.outcome_pending (code : BitVec 4) (r : Reason) : (s.outcome code r).pending = s.pending := rfl

@[simp] theorem State.refuse_sst (code : BitVec 4) (r : Reason) : (s.refuse code r).sst = s.sst := rfl
@[simp] theorem State.refuse_stm (code : BitVec 4) (r : Reason) : (s.refuse code r).stm = s.stm := rfl
@[simp] theorem State.refuse_cnv (code : BitVec 4) (r : Reason) : (s.refuse code r).cnv = s.cnv := rfl
@[simp] theorem State.refuse_acq (code : BitVec 4) (r : Reason) : (s.refuse code r).acq = s.acq := rfl
@[simp] theorem State.refuse_tru (code : BitVec 4) (r : Reason) : (s.refuse code r).tru = s.tru := rfl
@[simp] theorem State.refuse_rtb (code : BitVec 4) (r : Reason) : (s.refuse code r).rtb = s.rtb := rfl
@[simp] theorem State.refuse_cq (code : BitVec 4) (r : Reason) : (s.refuse code r).cq = s.cq := rfl
@[simp] theorem State.refuse_rq (code : BitVec 4) (r : Reason) : (s.refuse code r).rq = s.rq := rfl
@[simp] theorem State.refuse_ble (code : BitVec 4) (r : Reason) : (s.refuse code r).ble = s.ble := rfl
@[simp] theorem State.refuse_xf (code : BitVec 4) (r : Reason) : (s.refuse code r).xf = s.xf := rfl
@[simp] theorem State.refuse_evu (code : BitVec 4) (r : Reason) : (s.refuse code r).evu = { s.evu with sticky := { s.evu.sticky with refused := true } } := rfl
@[simp] theorem State.refuse_hpi (code : BitVec 4) (r : Reason) : (s.refuse code r).hpi = { s.hpi with code := code, reason := r } := rfl
@[simp] theorem State.refuse_held (code : BitVec 4) (r : Reason) : (s.refuse code r).held = s.held := rfl
@[simp] theorem State.refuse_busData (code : BitVec 4) (r : Reason) : (s.refuse code r).busData = s.busData := rfl
@[simp] theorem State.refuse_conversions (code : BitVec 4) (r : Reason) : (s.refuse code r).conversions = s.conversions := rfl
@[simp] theorem State.refuse_pending (code : BitVec 4) (r : Reason) : (s.refuse code r).pending = s.pending := rfl

@[simp] theorem State.give_sst (w : Word) : (s.give w).sst = s.sst := rfl
@[simp] theorem State.give_stm (w : Word) : (s.give w).stm = s.stm := rfl
@[simp] theorem State.give_cnv (w : Word) : (s.give w).cnv = s.cnv := rfl
@[simp] theorem State.give_acq (w : Word) : (s.give w).acq = s.acq := rfl
@[simp] theorem State.give_tru (w : Word) : (s.give w).tru = s.tru := rfl
@[simp] theorem State.give_rtb (w : Word) : (s.give w).rtb = s.rtb := rfl
@[simp] theorem State.give_cq (w : Word) : (s.give w).cq = s.cq := rfl
@[simp] theorem State.give_rq (w : Word) : (s.give w).rq = s.rq := rfl
@[simp] theorem State.give_ble (w : Word) : (s.give w).ble = s.ble := rfl
@[simp] theorem State.give_xf (w : Word) : (s.give w).xf = s.xf := rfl
@[simp] theorem State.give_evu (w : Word) : (s.give w).evu = s.evu := rfl
@[simp] theorem State.give_hpi (w : Word) : (s.give w).hpi = s.hpi := rfl
@[simp] theorem State.give_held (w : Word) : (s.give w).held = s.held := rfl
@[simp] theorem State.give_busData (w : Word) : (s.give w).busData = w := rfl
@[simp] theorem State.give_conversions (w : Word) : (s.give w).conversions = s.conversions := rfl
@[simp] theorem State.give_pending (w : Word) : (s.give w).pending = s.pending := rfl

@[simp] theorem State.setGap_sst : (s.setGap).sst = s.sst := by unfold State.setGap; split <;> rfl
@[simp] theorem State.setGap_stm : (s.setGap).stm = s.stm := by unfold State.setGap; split <;> rfl
@[simp] theorem State.setGap_cnv : (s.setGap).cnv = s.cnv := by unfold State.setGap; split <;> rfl
@[simp] theorem State.setGap_acq : (s.setGap).acq = s.acq := by unfold State.setGap; split <;> rfl
@[simp] theorem State.setGap_tru : (s.setGap).tru = s.tru := by unfold State.setGap; split <;> rfl
@[simp] theorem State.setGap_cq : (s.setGap).cq = s.cq := by unfold State.setGap; split <;> rfl
@[simp] theorem State.setGap_rq : (s.setGap).rq = s.rq := by unfold State.setGap; split <;> rfl
@[simp] theorem State.setGap_ble : (s.setGap).ble = s.ble := by unfold State.setGap; split <;> rfl
@[simp] theorem State.setGap_xf : (s.setGap).xf = s.xf := by unfold State.setGap; split <;> rfl
@[simp] theorem State.setGap_evu : (s.setGap).evu = s.evu := by unfold State.setGap; split <;> rfl
@[simp] theorem State.setGap_hpi : (s.setGap).hpi = s.hpi := by unfold State.setGap; split <;> rfl
@[simp] theorem State.setGap_held : (s.setGap).held = s.held := by unfold State.setGap; split <;> rfl
@[simp] theorem State.setGap_busData : (s.setGap).busData = s.busData := by unfold State.setGap; split <;> rfl
@[simp] theorem State.setGap_conversions : (s.setGap).conversions = s.conversions := by unfold State.setGap; split <;> rfl
@[simp] theorem State.setGap_pending : (s.setGap).pending = s.pending := by unfold State.setGap; split <;> rfl

@[simp] theorem State.scanEvent_sst : (s.scanEvent).sst = s.sst := by unfold State.scanEvent; (repeat' split) <;> simp
@[simp] theorem State.scanEvent_stm : (s.scanEvent).stm = s.stm := by unfold State.scanEvent; (repeat' split) <;> simp
@[simp] theorem State.scanEvent_tru : (s.scanEvent).tru = s.tru := by unfold State.scanEvent; (repeat' split) <;> simp
@[simp] theorem State.scanEvent_cq : (s.scanEvent).cq = s.cq := by unfold State.scanEvent; (repeat' split) <;> simp
@[simp] theorem State.scanEvent_rq : (s.scanEvent).rq = s.rq := by unfold State.scanEvent; (repeat' split) <;> simp
@[simp] theorem State.scanEvent_ble : (s.scanEvent).ble = s.ble := by unfold State.scanEvent; (repeat' split) <;> simp
@[simp] theorem State.scanEvent_xf : (s.scanEvent).xf = s.xf := by unfold State.scanEvent; (repeat' split) <;> simp
@[simp] theorem State.scanEvent_hpi : (s.scanEvent).hpi = s.hpi := by unfold State.scanEvent; (repeat' split) <;> simp
@[simp] theorem State.scanEvent_held : (s.scanEvent).held = s.held := by unfold State.scanEvent; (repeat' split) <;> simp
@[simp] theorem State.scanEvent_busData : (s.scanEvent).busData = s.busData := by unfold State.scanEvent; (repeat' split) <;> simp
@[simp] theorem State.scanEvent_conversions : (s.scanEvent).conversions = s.conversions := by unfold State.scanEvent; (repeat' split) <;> simp
@[simp] theorem State.scanEvent_pending : (s.scanEvent).pending = s.pending := by unfold State.scanEvent; (repeat' split) <;> simp

@[simp] theorem State.afterSeal_sst : (s.afterSeal).sst = s.sst := by unfold State.afterSeal; (repeat' split) <;> simp
@[simp] theorem State.afterSeal_cnv : (s.afterSeal).cnv = s.cnv := by unfold State.afterSeal; (repeat' split) <;> simp
@[simp] theorem State.afterSeal_cq : (s.afterSeal).cq = s.cq := by unfold State.afterSeal; (repeat' split) <;> simp
@[simp] theorem State.afterSeal_rq : (s.afterSeal).rq = s.rq := by unfold State.afterSeal; (repeat' split) <;> simp
@[simp] theorem State.afterSeal_ble : (s.afterSeal).ble = s.ble := by unfold State.afterSeal; (repeat' split) <;> simp
@[simp] theorem State.afterSeal_xf : (s.afterSeal).xf = s.xf := by unfold State.afterSeal; (repeat' split) <;> simp
@[simp] theorem State.afterSeal_hpi : (s.afterSeal).hpi = s.hpi := by unfold State.afterSeal; (repeat' split) <;> simp
@[simp] theorem State.afterSeal_held : (s.afterSeal).held = s.held := by unfold State.afterSeal; (repeat' split) <;> simp
@[simp] theorem State.afterSeal_busData : (s.afterSeal).busData = s.busData := by unfold State.afterSeal; (repeat' split) <;> simp
@[simp] theorem State.afterSeal_conversions : (s.afterSeal).conversions = s.conversions := by unfold State.afterSeal; (repeat' split) <;> simp
@[simp] theorem State.afterSeal_pending : (s.afterSeal).pending = s.pending := by unfold State.afterSeal; (repeat' split) <;> simp

@[simp] theorem State.endRecord_sst : (s.endRecord).sst = s.sst := by unfold State.endRecord; split <;> rfl
@[simp] theorem State.endRecord_stm : (s.endRecord).stm = s.stm := by unfold State.endRecord; split <;> rfl
@[simp] theorem State.endRecord_cnv : (s.endRecord).cnv = s.cnv := by unfold State.endRecord; split <;> rfl
@[simp] theorem State.endRecord_acq : (s.endRecord).acq = s.acq := by unfold State.endRecord; split <;> rfl
@[simp] theorem State.endRecord_tru : (s.endRecord).tru = s.tru := by unfold State.endRecord; split <;> rfl
@[simp] theorem State.endRecord_cq : (s.endRecord).cq = s.cq := by unfold State.endRecord; split <;> rfl
@[simp] theorem State.endRecord_rq : (s.endRecord).rq = s.rq := by unfold State.endRecord; split <;> rfl
@[simp] theorem State.endRecord_ble : (s.endRecord).ble = s.ble := by unfold State.endRecord; split <;> rfl
@[simp] theorem State.endRecord_xf : (s.endRecord).xf = s.xf := by unfold State.endRecord; split <;> rfl
@[simp] theorem State.endRecord_hpi : (s.endRecord).hpi = s.hpi := by unfold State.endRecord; split <;> rfl
@[simp] theorem State.endRecord_held : (s.endRecord).held = s.held := by unfold State.endRecord; split <;> rfl
@[simp] theorem State.endRecord_busData : (s.endRecord).busData = s.busData := by unfold State.endRecord; split <;> rfl
@[simp] theorem State.endRecord_conversions : (s.endRecord).conversions = s.conversions := by unfold State.endRecord; split <;> rfl
@[simp] theorem State.endRecord_pending : (s.endRecord).pending = s.pending := by unfold State.endRecord; split <;> rfl

@[simp] theorem State.stopOutcome_sst : (s.stopOutcome).sst = s.sst := by simp [State.stopOutcome]
@[simp] theorem State.stopOutcome_stm : (s.stopOutcome).stm = { s.stm with active := periodTicks s.acq.cfg.period } := by simp [State.stopOutcome]
@[simp] theorem State.stopOutcome_cnv : (s.stopOutcome).cnv = { s.cnv with scan := .free } := by simp [State.stopOutcome]
@[simp] theorem State.stopOutcome_acq : (s.stopOutcome).acq = { s.acq with state := .idle } := by simp [State.stopOutcome]
@[simp] theorem State.stopOutcome_tru : (s.stopOutcome).tru = { s.tru with host := false, line := false } := by simp [State.stopOutcome]
@[simp] theorem State.stopOutcome_cq : (s.stopOutcome).cq = s.cq := by simp [State.stopOutcome]
@[simp] theorem State.stopOutcome_rq : (s.stopOutcome).rq = s.rq := by simp [State.stopOutcome]
@[simp] theorem State.stopOutcome_ble : (s.stopOutcome).ble = s.ble := by simp [State.stopOutcome]
@[simp] theorem State.stopOutcome_xf : (s.stopOutcome).xf = s.xf := by simp [State.stopOutcome]
@[simp] theorem State.stopOutcome_hpi : (s.stopOutcome).hpi = s.hpi := by simp [State.stopOutcome]
@[simp] theorem State.stopOutcome_held : (s.stopOutcome).held = s.held := by simp [State.stopOutcome]
@[simp] theorem State.stopOutcome_busData : (s.stopOutcome).busData = s.busData := by simp [State.stopOutcome]
@[simp] theorem State.stopOutcome_conversions : (s.stopOutcome).conversions = s.conversions := by simp [State.stopOutcome]
@[simp] theorem State.stopOutcome_pending : (s.stopOutcome).pending = s.pending := by simp [State.stopOutcome]


@[simp] theorem State.touch_sst : (s.touch).sst = s.sst := by unfold State.touch; split <;> rfl
@[simp] theorem State.touch_stm : (s.touch).stm = s.stm := by unfold State.touch; split <;> rfl
@[simp] theorem State.touch_cnv : (s.touch).cnv = s.cnv := by unfold State.touch; split <;> rfl
@[simp] theorem State.touch_acq : (s.touch).acq = s.acq := by unfold State.touch; split <;> rfl
@[simp] theorem State.touch_tru : (s.touch).tru = s.tru := by unfold State.touch; split <;> rfl
@[simp] theorem State.touch_rtb : (s.touch).rtb = s.rtb := by unfold State.touch; split <;> rfl
@[simp] theorem State.touch_cq : (s.touch).cq = s.cq := by unfold State.touch; split <;> rfl
@[simp] theorem State.touch_rq : (s.touch).rq = s.rq := by unfold State.touch; split <;> rfl
@[simp] theorem State.touch_ble : (s.touch).ble = s.ble := by unfold State.touch; split <;> rfl
@[simp] theorem State.touch_evu : (s.touch).evu = s.evu := by unfold State.touch; split <;> rfl
@[simp] theorem State.touch_hpi : (s.touch).hpi = s.hpi := by unfold State.touch; split <;> rfl
@[simp] theorem State.touch_held : (s.touch).held = s.held := by unfold State.touch; split <;> rfl
@[simp] theorem State.touch_busData : (s.touch).busData = s.busData := by unfold State.touch; split <;> rfl
@[simp] theorem State.touch_conversions : (s.touch).conversions = s.conversions := by unfold State.touch; split <;> rfl
@[simp] theorem State.touch_pending : (s.touch).pending = s.pending := by unfold State.touch; split <;> rfl

@[simp] theorem State.advance_sst : (s.advance).sst = s.sst := by unfold State.advance; split <;> rfl
@[simp] theorem State.advance_stm : (s.advance).stm = s.stm := by unfold State.advance; split <;> rfl
@[simp] theorem State.advance_cnv : (s.advance).cnv = s.cnv := by unfold State.advance; split <;> rfl
@[simp] theorem State.advance_acq : (s.advance).acq = s.acq := by unfold State.advance; split <;> rfl
@[simp] theorem State.advance_tru : (s.advance).tru = s.tru := by unfold State.advance; split <;> rfl
@[simp] theorem State.advance_rtb : (s.advance).rtb = s.rtb := by unfold State.advance; split <;> rfl
@[simp] theorem State.advance_cq : (s.advance).cq = s.cq := by unfold State.advance; split <;> rfl
@[simp] theorem State.advance_rq : (s.advance).rq = s.rq := by unfold State.advance; split <;> rfl
@[simp] theorem State.advance_ble : (s.advance).ble = s.ble := by unfold State.advance; split <;> rfl
@[simp] theorem State.advance_xf : (s.advance).xf = s.xf := by unfold State.advance; split <;> rfl
@[simp] theorem State.advance_evu : (s.advance).evu = s.evu := by unfold State.advance; split <;> rfl
@[simp] theorem State.advance_held : (s.advance).held = s.held := by unfold State.advance; split <;> rfl
@[simp] theorem State.advance_busData : (s.advance).busData = s.busData := by unfold State.advance; split <;> rfl
@[simp] theorem State.advance_conversions : (s.advance).conversions = s.conversions := by unfold State.advance; split <;> rfl
@[simp] theorem State.advance_pending : (s.advance).pending = s.pending := by unfold State.advance; split <;> rfl

@[simp] theorem State.capture_sst : (s.capture).sst = s.sst := by unfold State.capture; split <;> rfl
@[simp] theorem State.capture_stm : (s.capture).stm = s.stm := by unfold State.capture; split <;> rfl
@[simp] theorem State.capture_cnv : (s.capture).cnv = s.cnv := by unfold State.capture; split <;> rfl
@[simp] theorem State.capture_tru : (s.capture).tru = s.tru := by unfold State.capture; split <;> rfl
@[simp] theorem State.capture_rtb : (s.capture).rtb = s.rtb := by unfold State.capture; split <;> rfl
@[simp] theorem State.capture_cq : (s.capture).cq = s.cq := by unfold State.capture; split <;> rfl
@[simp] theorem State.capture_rq : (s.capture).rq = s.rq := by unfold State.capture; split <;> rfl
@[simp] theorem State.capture_ble : (s.capture).ble = s.ble := by unfold State.capture; split <;> rfl
@[simp] theorem State.capture_xf : (s.capture).xf = s.xf := by unfold State.capture; split <;> rfl
@[simp] theorem State.capture_evu : (s.capture).evu = s.evu := by unfold State.capture; split <;> rfl
@[simp] theorem State.capture_hpi : (s.capture).hpi = s.hpi := by unfold State.capture; split <;> rfl
@[simp] theorem State.capture_held : (s.capture).held = s.held := by unfold State.capture; split <;> rfl
@[simp] theorem State.capture_busData : (s.capture).busData = s.busData := by unfold State.capture; split <;> rfl
@[simp] theorem State.capture_conversions : (s.capture).conversions = s.conversions := by unfold State.capture; split <;> rfl
@[simp] theorem State.capture_pending : (s.capture).pending = s.pending := by unfold State.capture; split <;> rfl

/-! ## The row commit before its record -/

variable (row : List Word)

@[simp] theorem commitRow_sst : (commitRow s row).sst = { s.sst with cells := Sheet.writeRow s.sst.cells s.acq.writer (commitWord row (triggerTaken s row)) } := rfl
@[simp] theorem commitRow_stm : (commitRow s row).stm = s.stm := rfl
@[simp] theorem commitRow_cnv : (commitRow s row).cnv = { s.cnv with scan := .free } := rfl
@[simp] theorem commitRow_acq : (commitRow s row).acq = { s.acq with committed := s.acq.committed + 1#32, writer := s.acq.cfg.succ s.acq.writer } := rfl
@[simp] theorem commitRow_tru : (commitRow s row).tru = truAfter s row := rfl
@[simp] theorem commitRow_rtb : (commitRow s row).rtb = s.rtb := rfl
@[simp] theorem commitRow_cq : (commitRow s row).cq = s.cq := rfl
@[simp] theorem commitRow_rq : (commitRow s row).rq = s.rq := rfl
@[simp] theorem commitRow_ble : (commitRow s row).ble = s.ble := rfl
@[simp] theorem commitRow_xf : (commitRow s row).xf = s.xf := rfl
@[simp] theorem commitRow_evu : (commitRow s row).evu = s.evu := rfl
@[simp] theorem commitRow_hpi : (commitRow s row).hpi = s.hpi := rfl
@[simp] theorem commitRow_busData : (commitRow s row).busData = s.busData := rfl
@[simp] theorem commitRow_conversions : (commitRow s row).conversions = s.conversions := rfl
@[simp] theorem commitRow_pending : (commitRow s row).pending = s.pending := rfl

end Sys2Proof.Machine
end

