-- ==== Sys2Proof/Laws/Ops.lean ====
section
/-! SUPPORT. One lemma for each shared operation, which says once what it does; proofs cite these and unfold no
operation. -/

namespace Sys2Proof.Machine

variable {s t : State}

/-! ## The step -/

/-- With a command in front, a step runs it with the queue's rest. -/
theorem step_cons {c : Instr} {rest : List Instr} (h : s.pending = c :: rest) :
    step s = exec c { s with pending := rest } := by
  rw [step, h]

/-- With none waiting, a step is the block left to itself. -/
theorem step_nil (h : s.pending = []) : step s = .next (idle s) := by
  rw [step, h]

/-! ## Requests -/

/-- A request is refused, with INIT during the sweep and else with the first reason found, or accepted. -/
theorem State.request_cases (s : State) (code : BitVec 4) (check : State → Option Reason) (act : State → State) :
    (s.sweeping = true ∧ s.request code check act = s.refuse code .init) ∨
      (s.sweeping = false ∧ ∃ r, check s = some r ∧ s.request code check act = s.refuse code r) ∨
      (s.sweeping = false ∧ check s = none ∧ s.request code check act = (act s).outcome code .accepted) := by
  unfold State.request
  cases s.sweeping <;> cases check s <;> simp

/-- A request in the sweep is refused with INIT. -/
theorem State.request_init {code : BitVec 4} {check : State → Option Reason} {act : State → State}
    (h : s.sweeping = true) : s.request code check act = s.refuse code .init := by
  simp [State.request, h]

/-- A request whose check finds a reason is refused with it. -/
theorem State.request_refused {code : BitVec 4} {check : State → Option Reason} {act : State → State} {r : Reason}
    (h : s.sweeping = false) (hc : check s = some r) : s.request code check act = s.refuse code r := by
  simp [State.request, h, hc]

/-- A request whose check finds no reason is accepted with its effect. -/
theorem State.request_accepted {code : BitVec 4} {check : State → Option Reason} {act : State → State}
    (h : s.sweeping = false) (hc : check s = none) : s.request code check act = (act s).outcome code .accepted := by
  simp [State.request, h, hc]

/-- A refused request sets REFUSED and the outcome word and changes nothing else (R170). -/
theorem State.refuse_refusedWith (s : State) (code : BitVec 4) (r : Reason) :
    RefusedWith code r s (s.refuse code r) :=
  ⟨rfl, rfl, fun b hb => by cases b <;> first | (exfalso; simp at hb; done) | rfl⟩

/-- The outcome word alone changes. -/
theorem State.outcome_keptBut (s : State) (code : BitVec 4) (r : Reason) : KeptBut [.hpi] s (s.outcome code r) :=
  fun b hb => by cases b <;> first | (exfalso; simp at hb; done) | rfl

/-! ## The record table -/

/-- One descriptor is replaced. -/
@[simp] theorem State.setRec_get (s : State) (n m : Fin 8) (d : Descriptor) :
    (s.setRec n d).rtb.recs[m] = if m = n then d else s.rtb.recs[m] := by
  simp [State.setRec, Vector.getElem_set, Fin.ext_iff, eq_comm]

/-- A record that a list names gains one pin. -/
@[simp] theorem RecordTable.pin_get (rtb : RecordTable) (refs : List (Fin 8)) (n : Fin 8) :
    (rtb.pin refs).recs[n] = { rtb.recs[n] with pins := rtb.recs[n].pins + if n ∈ refs then 1 else 0 } := by
  simp only [RecordTable.pin, Fin.getElem_fin, Vector.getElem_ofFn]
  split <;> rfl

/-- A record that a list names loses one pin. -/
@[simp] theorem RecordTable.unpin_get (rtb : RecordTable) (refs : List (Fin 8)) (n : Fin 8) :
    (rtb.unpin refs).recs[n] = { rtb.recs[n] with pins := rtb.recs[n].pins - if n ∈ refs then 1 else 0 } := by
  simp only [RecordTable.unpin, Fin.getElem_fin, Vector.getElem_ofFn]
  split <;> rfl

/-- Every record loses every pin. -/
@[simp] theorem RecordTable.unpinAll_get (rtb : RecordTable) (n : Fin 8) :
    rtb.unpinAll.recs[n] = { rtb.recs[n] with pins := 0 } := by
  simp [RecordTable.unpinAll]

@[simp] theorem RecordTable.pin_order (rtb : RecordTable) (refs : List (Fin 8)) : (rtb.pin refs).order = rtb.order := rfl
@[simp] theorem RecordTable.unpin_order (rtb : RecordTable) (refs : List (Fin 8)) :
    (rtb.unpin refs).order = rtb.order := rfl
@[simp] theorem RecordTable.unpinAll_order (rtb : RecordTable) : rtb.unpinAll.order = rtb.order := rfl

/-- A descriptor is freed. -/
@[simp] theorem State.freeRec_get (s : State) (n m : Fin 8) :
    (s.freeRec n).rtb.recs[m] = if m = n then Descriptor.free else s.rtb.recs[m] := by
  simp [State.freeRec, Vector.getElem_set, Fin.ext_iff, eq_comm]

/-- A record is sealed. -/
@[simp] theorem State.sealRec_get (s : State) (n m : Fin 8) (truncated : Bool) :
    (s.sealRec n truncated).rtb.recs[m] =
      if m = n then { s.rtb.recs[n] with state := .sealed, truncated := truncated, pins := 0 } else s.rtb.recs[m] := by
  simp [State.sealRec, Vector.getElem_set, Fin.ext_iff, eq_comm]

/-- A record is allocated. -/
@[simp] theorem State.allocate_get (s : State) (n m : Fin 8) :
    (s.allocate n).rtb.recs[m] =
      if m = n then Descriptor.fresh s.acq.writer s.acq.cfg.listLength else s.rtb.recs[m] := by
  have h : (s.allocate n).rtb = (s.setRec n (Descriptor.fresh s.acq.writer s.acq.cfg.listLength)).rtb := rfl
  rw [h, State.setRec_get]

/-- Every record number stands in the list of them. -/
theorem mem_recordNumbers (n : Fin 8) : n ∈ recordNumbers := by
  revert n; decide

/-- The lowest FREE descriptor: it is FREE, and no lower one is. -/
theorem State.lowestFree_eq_some {n : Fin 8} :
    s.lowestFree = some n ↔ s.rtb.recs[n].state = .free ∧ ∀ m < n, s.rtb.recs[m].state ≠ .free := by
  unfold State.lowestFree
  constructor
  · intro h
    obtain ⟨hn, as, bs, hl, hlt⟩ := List.find?_eq_some_iff_append.mp h
    refine ⟨by simpa using hn, fun m hm => ?_⟩
    have hmem : m ∈ as := by
      have hs : List.Pairwise (· < ·) recordNumbers := by decide
      rw [hl, List.pairwise_append] at hs
      have := mem_recordNumbers m
      rw [hl, List.mem_append, List.mem_cons] at this
      rcases this with h1 | h1 | h1
      · exact h1
      · exact absurd h1 (ne_of_lt hm)
      · have := (List.pairwise_cons.mp hs.2.1).1 m h1
        exact absurd hm (not_lt.mpr (le_of_lt this))
    simpa using hlt m hmem
  · rintro ⟨h1, h2⟩
    rw [List.find?_eq_some_iff_append]
    refine ⟨by simpa using h1, recordNumbers.take n, recordNumbers.drop (n + 1), ?_, fun m hm => ?_⟩
    · clear h1 h2; revert n; decide
    · have : m < n := by clear h1 h2; revert m n; decide
      simpa using h2 m this

/-- No descriptor is FREE. -/
theorem State.lowestFree_eq_none : s.lowestFree = none ↔ ∀ n : Fin 8, s.rtb.recs[n].state ≠ .free := by
  simp [State.lowestFree, List.find?_eq_none, mem_recordNumbers]

/-- Every descriptor is FREE. -/
theorem State.allFree_iff : s.allFree = true ↔ ∀ n : Fin 8, s.rtb.recs[n].state = .free := by
  simp [State.allFree, mem_recordNumbers]

/-- The ring is blocked: the writer row lies in a SEALED arc (R54). -/
theorem State.blocked_iff :
    s.blocked = true ↔
      ∃ n : Fin 8, s.rtb.recs[n].state = .sealed ∧ s.rtb.recs[n].holds s.acq.cfg s.acq.writer = true := by
  simp [State.blocked, mem_recordNumbers]

/-! ## Results -/

/-- Filling the first pending place where it stands (R110). -/
theorem fillPending_append (e : Entry) (after : List Place) :
    ∀ {before : List Place}, .pending ∉ before →
      fillPending e (before ++ .pending :: after) = before ++ .posted e :: after
  | [], _ => rfl
  | .pending :: _, h => absurd (List.mem_cons_self ..) h
  | .posted x :: ps, h => by
    simp [fillPending, fillPending_append e after (fun hp => h (List.mem_cons_of_mem _ hp))]

/-- Posting answers the running command (R92, R110, R124). -/
theorem State.post_answered {c : Staged} {st : Status} {progress : Nat} {d : Detail} (h : .pending ∈ s.rq) :
    Answered s (s.post c st progress d) c st progress d := by
  obtain ⟨before, after, hsplit, hb⟩ := List.eq_append_cons_of_mem h
  exact ⟨rfl, ⟨rfl, fun n => RecordTable.unpin_get ..⟩, before, after, hb, hsplit, by
    rw [State.post_rq, hsplit, fillPending_append _ _ hb]; rfl⟩

/-- Posting an entry fills one pending place, if there is one. -/
theorem pendingCount_fillPending (e : Entry) :
    ∀ rq : List Place, pendingCount (fillPending e rq) = pendingCount rq - 1
  | [] => rfl
  | .pending :: ps => by simp [fillPending, pendingCount]
  | .posted x :: ps => by
    have := pendingCount_fillPending e ps
    simpa [fillPending, pendingCount] using this

/-- Posting an entry makes one more posted place, if one is pending. -/
theorem postedCount_fillPending (e : Entry) :
    ∀ rq : List Place, 1 ≤ pendingCount rq → postedCount (fillPending e rq) = postedCount rq + 1
  | [], h => by simp [pendingCount] at h
  | .pending :: ps, _ => by simp [fillPending, postedCount]
  | .posted x :: ps, h => by
    have := postedCount_fillPending e ps (by simpa [pendingCount] using h)
    simp only [fillPending, postedCount, List.countP_cons] at this ⊢
    omega

/-! ## The store port and addresses -/

/-- A row commit waits exactly in PRESENTED. -/
theorem State.commitWaits_iff : s.commitWaits = true ↔ ∃ row, s.cnv.scan = .presented row := by
  unfold State.commitWaits
  cases s.cnv.scan <;> simp

/-- With a row at the port, a commit waits. -/
theorem State.commitWaits_of {row : List Word} (h : s.cnv.scan = .presented row) : s.commitWaits = true :=
  State.commitWaits_iff.mpr ⟨row, h⟩

/-- With no row at the port, no commit waits. -/
theorem State.commitWaits_false (h : ∀ row, s.cnv.scan ≠ .presented row) : s.commitWaits = false := by
  rw [← Bool.not_eq_true, State.commitWaits_iff]
  rintro ⟨row, hr⟩
  exact h row hr

/-- A free port serves every access. -/
theorem PortFree.serves (h : PortFree s) (r : Running) : PortServes s r := ⟨h.1, h.2.1, .inr h.2.2⟩

/-- The port serves the engine when `PortServes` says so. -/
theorem PortServes.portServes {r : Running} (h : PortServes s r) : s.portServes r = true := by
  obtain ⟨-, h1, h2⟩ := h
  unfold State.portServes
  rcases h2 with h2 | h2
  · simp [h1, h2]
  · simp [h1, State.commitWaits_false h2]

/-- A command is taken while no power-on reset lasts. -/
theorem State.unlessHeld_of {out : Out} (h : s.held = false) : s.unlessHeld out = out := by
  simp [State.unlessHeld, h]

/-- A command has no effect while a power-on reset lasts. -/
theorem State.unlessHeld_held {out : Out} (h : s.held = true) : s.unlessHeld out = .next s := by
  simp [State.unlessHeld, h]

/-- An element of the running command is served. -/
theorem State.onElement_served {r : Running} {sel : Staged → Bool} {f : Running → State → Out} (h : s.ble = .run r)
    (hsel : sel r.cmd = true) (hp : PortServes s r) : s.onElement sel f = f r s := by
  rw [State.onElement, State.unlessHeld_of hp.1, h]
  simp [hsel, hp.portServes]

/-- An element event is served in RUN, by the port, or changes nothing. -/
theorem State.onElement_cases (s : State) (sel : Staged → Bool) (f : Running → State → Out) :
    s.onElement sel f = .next s ∨
      ∃ r, s.ble = .run r ∧ sel r.cmd = true ∧ PortServes s r ∧ s.onElement sel f = f r s := by
  unfold State.onElement State.unlessHeld
  cases hh : s.held
  · cases hb : s.ble with
    | run r =>
      by_cases h : (sel r.cmd && s.portServes r) = true
      · right
        refine ⟨r, rfl, (Bool.and_eq_true _ _ ▸ h).1, ⟨hh, ?_⟩, by simp [h]⟩
        have hs := (Bool.and_eq_true _ _ ▸ h).2
        simp only [State.portServes, Bool.and_eq_true, Bool.not_eq_true', Bool.or_eq_true] at hs
        refine ⟨hs.1, hs.2.imp_right fun hw row hr => ?_⟩
        rw [State.commitWaits_of hr] at hw
        exact absurd hw (by simp)
      · left
        simp only [Bool.not_eq_true] at h
        simp [h]
    | _ => exact .inl (by simp)
  · exact .inl (by simp)

/-- With no row at the port, the next access of an element follows at once (R126). -/
theorem State.between_free {r : Running} {next : Running → State → Out} (h : ∀ row, s.cnv.scan ≠ .presented row) :
    s.between r next = next r s := by
  simp [State.between, State.commitWaits_false h]

/-- With a row at the port, the rest of an element waits behind it (R11). -/
theorem State.between_waits {r : Running} {next : Running → State → Out} {row : List Word}
    (h : s.cnv.scan = .presented row) : s.between r next = .next { s with ble := .run { r with busy := false } } := by
  simp [State.between, State.commitWaits_of h]

/-- The address of a sheet word (R1). -/
theorem sheetAddr_eq_some {row col a : Nat} :
    sheetAddr row col = some a ↔ row < 2048 ∧ col < 16 ∧ a = 16 * row + col := by
  unfold sheetAddr
  simp only [Config.sheetRows, Config.sheetCols]
  split
  · simp only [Option.some.injEq]; omega
  · simp only [reduceCtorEq, false_iff]; omega

/-- Every address of an element is a word of the sheet. -/
theorem Coord.addr_lt {q : Coord} {cfg : AcqTable} {rtb : RecordTable} {i j a : Nat} (h : q.addr cfg rtb i j = some a) :
    a < Config.sheetWords := by
  have := sheetAddr_eq_some.mp h
  simp only [Config.sheetWords]
  omega

/-- Storing a word in the sheet changes that word alone (R1, R4). -/
theorem State.store_stored (h : SheetSound s) {a : Nat} (w : Word) : Stored s (s.store a w) a w := by
  refine ⟨rfl, fun k => ?_⟩
  rw [State.store_sst]
  by_cases hk : k = a
  · subst hk; rw [if_pos rfl]; exact Sheet.read_write_self h.1 k w
  · rw [if_neg hk]; exact Sheet.read_write_other h.1 w hk

/-- Storing a word keeps the sheet sound. -/
theorem State.store_sound (h : SheetSound s) {a : Nat} (ha : a < Config.sheetWords) (w : Word) :
    SheetSound (s.store a w) :=
  ⟨Sheet.wf_write ha h.1, h.2⟩

/-- With no sweep running, an access reads the sheet. -/
theorem State.wordAt_eq_read (h : s.sweeping = false) (a : Nat) : s.wordAt a = Sheet.read s.sst.cells a := by
  simp [State.wordAt, h]

/-! ## Frames -/

theorem KeptBut.refl (bs : List Block) (s : State) : KeptBut bs s s := fun b _ => by cases b <;> rfl

theorem KeptBut.mono {bs cs : List Block} (h : KeptBut bs s t) (hsub : bs ⊆ cs) : KeptBut cs s t :=
  fun b hb => h b fun hm => hb (hsub hm)

/-- Frames compose. -/
theorem KeptBut.trans {u : State} {bs : List Block} (h : KeptBut bs s t) (k : KeptBut bs t u) : KeptBut bs s u :=
  fun b hb => by
    have h1 := h b hb
    have h2 := k b hb
    cases b <;> exact h2.trans h1

end Sys2Proof.Machine
end

