-- ==== Sys2Proof/Laws/Acquisition.lean ====
section
/-! SUPPORT. What each part of a row commit does to the state it is given, for any such state; a proof about a commit
cites these of `commitRow s row` and never unfolds them there. -/

namespace Sys2Proof.Machine

variable (s : State) (n : Fin 8)

/-- A part of step 5 of a commit leaves the sheet, the counters, the configuration, the writer row, the converter, the
TRIG sample and the enables, and every block outside ACQ, TRU, RTB, STM and EVU (R55). -/
def CommitPart (s t : State) : Prop :=
  t.sst = s.sst ∧ t.acq.committed = s.acq.committed ∧ t.acq.dropped = s.acq.dropped ∧ t.acq.cfg = s.acq.cfg ∧
    t.acq.writer = s.acq.writer ∧ t.cnv = s.cnv ∧ t.tru.sample = s.tru.sample ∧ t.evu.enables = s.evu.enables ∧
    KeptBut [.acq, .tru, .rtb, .stm, .evu] s t

theorem CommitPart.trans {s t u : State} (h : CommitPart s t) (k : CommitPart t u) : CommitPart s u := by
  obtain ⟨h1, h2, h3, h4, h5, h6, h7, h8, h9⟩ := h
  obtain ⟨k1, k2, k3, k4, k5, k6, k7, k8, k9⟩ := k
  exact ⟨k1.trans h1, k2.trans h2, k3.trans h3, k4.trans h4, k5.trans h5, k6.trans h6, k7.trans h7, k8.trans h8,
    h9.trans k9⟩

theorem State.afterSeal_part : CommitPart s s.afterSeal := by
  unfold State.afterSeal
  split
  · split <;>
      exact ⟨rfl, rfl, rfl, rfl, rfl, rfl, rfl, rfl, fun b hb => by cases b <;> first | (exfalso; simp at hb; done) | rfl⟩
  · exact ⟨rfl, rfl, rfl, rfl, rfl, rfl, rfl, rfl, fun b hb => by cases b <;> first | (exfalso; simp at hb; done) | rfl⟩

theorem State.sealRec_part (truncated : Bool) : CommitPart s (s.sealRec n truncated) :=
  ⟨rfl, rfl, rfl, rfl, rfl, rfl, rfl, rfl, fun b hb => by cases b <;> first | (exfalso; simp at hb; done) | rfl⟩

theorem State.setRec_part (d : Descriptor) : CommitPart s (s.setRec n d) :=
  ⟨rfl, rfl, rfl, rfl, rfl, rfl, rfl, rfl, fun b hb => by cases b <;> first | (exfalso; simp at hb; done) | rfl⟩

theorem State.setSticky_part (f : Sticky) : CommitPart s (s.setSticky f) :=
  ⟨rfl, rfl, rfl, rfl, rfl, rfl, rfl, rfl, fun b hb => by cases b <;> first | (exfalso; simp at hb; done) | rfl⟩

/-! ## A row in PRE -/

theorem growPre_part : CommitPart s (growPre s n) := by
  unfold growPre
  simp only
  split <;>
    exact ⟨rfl, rfl, rfl, rfl, rfl, rfl, rfl, rfl, fun b hb => by cases b <;> first | (exfalso; simp at hb; done) | rfl⟩

/-- R56: LENGTH grows by 1, and at the pre count ACQ enters WAITTRIG; nothing else changes. -/
theorem growPre_spec :
    (∀ m : Fin 8, (growPre s n).rtb.recs[m] =
        if m = n then { s.rtb.recs[n] with length := s.rtb.recs[n].length + 1 } else s.rtb.recs[m]) ∧
      (growPre s n).rtb.order = s.rtb.order ∧
      (growPre s n).acq.state =
        (if s.rtb.recs[n].length + 1 = s.acq.cfg.preCount then .waittrig n else s.acq.state) ∧
      (growPre s n).tru = s.tru ∧ (growPre s n).evu = s.evu ∧ (growPre s n).stm = s.stm := by
  unfold growPre
  simp only
  split <;> exact ⟨fun m => State.setRec_get .., rfl, rfl, rfl, rfl, rfl⟩

/-! ## A row in WAITTRIG -/

theorem slideWait_part : CommitPart s (slideWait s n) :=
  ⟨rfl, rfl, rfl, rfl, rfl, rfl, rfl, rfl, fun b hb => by cases b <;> first | (exfalso; simp at hb; done) | rfl⟩

/-- R57: START moves on, or with pre count 0 to the writer row; nothing else changes. -/
theorem slideWait_spec :
    (∀ m : Fin 8, (slideWait s n).rtb.recs[m] =
        if m = n then
          { s.rtb.recs[n] with
            start := if s.acq.cfg.preCount = 0 then s.acq.writer else s.acq.cfg.succ s.rtb.recs[n].start }
        else s.rtb.recs[m]) ∧
      (slideWait s n).rtb.order = s.rtb.order ∧ (slideWait s n).acq.state = s.acq.state ∧
      (slideWait s n).tru = s.tru ∧ (slideWait s n).evu = s.evu ∧ (slideWait s n).stm = s.stm :=
  ⟨fun _ => State.setRec_get .., rfl, rfl, rfl, rfl, rfl⟩

/-! ## A row in POST -/

theorem growPost_part : CommitPart s (growPost s n) := by
  unfold growPost
  simp only
  split
  · exact ((State.setRec_part s n _).trans (State.sealRec_part _ n false)).trans (State.afterSeal_part _)
  · exact State.setRec_part s n _

/-- R59 short of the post count: LENGTH and POST grow by 1; nothing else changes. -/
theorem growPost_spec (h : s.rtb.recs[n].post + 1 ≠ s.acq.cfg.postCount) :
    (∀ m : Fin 8, (growPost s n).rtb.recs[m] =
        if m = n then
          { s.rtb.recs[n] with length := s.rtb.recs[n].length + 1, post := s.rtb.recs[n].post + 1 }
        else s.rtb.recs[m]) ∧
      (growPost s n).rtb.order = s.rtb.order ∧ (growPost s n).acq.state = s.acq.state ∧
      (growPost s n).tru = s.tru ∧ (growPost s n).evu = s.evu ∧ (growPost s n).stm = s.stm := by
  have e : growPost s n = s.setRec n
      { s.rtb.recs[n] with length := s.rtb.recs[n].length + 1, post := s.rtb.recs[n].post + 1 } := if_neg h
  rw [e]
  exact ⟨fun _ => State.setRec_get .., rfl, rfl, rfl, rfl, rfl⟩

/-! ## What follows a record's last row -/

/-- What a seal and what follows it do to a state whose open record `n` has its last row: it is sealed at the end of the
sealing order, and REARM and the FREE descriptors decide how ACQ goes on (R60, R61, R87). -/
structure SealedOn (s t : State) (n : Fin 8) : Prop where
  order : t.rtb.order = s.rtb.order ++ [n]
  record : t.rtb.recs[n] = { s.rtb.recs[n] with state := .sealed, truncated := false, pins := 0 }
  latches : t.tru.host = s.tru.host ∧ t.tru.line = s.tru.line
  idle : s.acq.cfg.rearm = false →
    t.acq.state = .idle ∧ t.tru = s.tru ∧ t.evu.sticky = { s.evu.sticky with sealed := true, acqdone := true } ∧
      t.stm = { s.stm with active := periodTicks s.acq.cfg.period } ∧ ∀ m : Fin 8, m ≠ n → t.rtb.recs[m] = s.rtb.recs[m]
  again : s.acq.cfg.rearm = true → ∀ k : Fin 8, k ≠ n → s.rtb.recs[k].state = .free →
    (∀ m < k, m ≠ n → s.rtb.recs[m].state ≠ .free) →
      t.acq.state = s.acq.cfg.entry k ∧ t.tru = { s.tru with flagged := false, count := 0 } ∧
        t.evu.sticky = { s.evu.sticky with sealed := true } ∧ t.stm = s.stm ∧
        t.rtb.recs[k] = Descriptor.fresh s.acq.writer s.acq.cfg.listLength ∧
        ∀ m : Fin 8, m ≠ n → m ≠ k → t.rtb.recs[m] = s.rtb.recs[m]
  starved : s.acq.cfg.rearm = true → (∀ m : Fin 8, m ≠ n → s.rtb.recs[m].state ≠ .free) →
    t.acq.state = .starved ∧ t.tru = s.tru ∧ t.evu.sticky = { s.evu.sticky with sealed := true, starved := true } ∧
      t.stm = { s.stm with active := periodTicks s.acq.cfg.period } ∧ ∀ m : Fin 8, m ≠ n → t.rtb.recs[m] = s.rtb.recs[m]

/-- The lowest FREE descriptor after a seal is the lowest FREE one among the others. -/
theorem State.lowestFree_sealRec {k : Fin 8} :
    (s.sealRec n false).lowestFree = some k ↔
      k ≠ n ∧ s.rtb.recs[k].state = .free ∧ ∀ m < k, m ≠ n → s.rtb.recs[m].state ≠ .free := by
  rw [State.lowestFree_eq_some]
  simp only [State.sealRec_get]
  constructor
  · rintro ⟨h1, h2⟩
    have hk : k ≠ n := by rintro rfl; simp at h1
    refine ⟨hk, by simpa [hk] using h1, fun m hm hmn => ?_⟩
    simpa [hmn] using h2 m hm
  · rintro ⟨hk, h1, h2⟩
    refine ⟨by simpa [hk] using h1, fun m hm => ?_⟩
    by_cases hmn : m = n
    · simp [hmn]
    · simpa [hmn] using h2 m hm hmn

theorem State.afterSeal_sealRec : SealedOn s (s.sealRec n false).afterSeal n := by
  have hrest : ∀ m : Fin 8, m ≠ n → (s.sealRec n false).rtb.recs[m] = s.rtb.recs[m] := fun m hm => by
    rw [State.sealRec_get, if_neg hm]
  have hself : (s.sealRec n false).rtb.recs[n] = { s.rtb.recs[n] with state := .sealed, truncated := false, pins := 0 } := by
    rw [State.sealRec_get, if_pos rfl]
  have hcfg : (s.sealRec n false).acq.cfg = s.acq.cfg := rfl
  unfold State.afterSeal
  rw [hcfg]
  cases hre : s.acq.cfg.rearm with
  | false =>
    simp only [Bool.false_eq_true, if_false]
    exact ⟨rfl, hself, ⟨rfl, rfl⟩, fun _ => ⟨rfl, rfl, rfl, rfl, hrest⟩, fun h => absurd (hre.symm.trans h) (by simp),
      fun h => absurd (hre.symm.trans h) (by simp)⟩
  | true =>
    simp only [if_true]
    cases hf : (s.sealRec n false).lowestFree with
    | none =>
      have hnone : ∀ m : Fin 8, m ≠ n → s.rtb.recs[m].state ≠ .free := fun m hm => by
        rw [← hrest m hm]; exact State.lowestFree_eq_none.mp hf m
      exact ⟨rfl, hself, ⟨rfl, rfl⟩, fun h => absurd (hre.symm.trans h) (by simp), fun _ k hk h => absurd h (hnone k hk),
        fun _ _ => ⟨rfl, rfl, rfl, rfl, hrest⟩⟩
    | some k =>
      obtain ⟨hkn, hk, hlow⟩ := (State.lowestFree_sealRec s n).mp hf
      refine ⟨rfl, ?_, ⟨rfl, rfl⟩, fun h => absurd (hre.symm.trans h) (by simp), fun _ j hj h hjlow => ?_,
        fun _ h => absurd hk (h k hkn)⟩
      · rw [State.allocate_get, if_neg (Ne.symm hkn)]; exact hself
      · obtain rfl : j = k := by
          have := (State.lowestFree_sealRec s n).mpr ⟨hj, h, hjlow⟩
          rw [hf] at this
          exact (Option.some.inj this).symm
        refine ⟨rfl, rfl, rfl, rfl, ?_, fun m hm hmj => ?_⟩
        · rw [State.allocate_get, if_pos rfl]; rfl
        · rw [State.allocate_get, if_neg hmj]; exact hrest m hm

/-- R59 at the post count: the row is the record's last. -/
theorem growPost_seals (h : s.rtb.recs[n].post + 1 = s.acq.cfg.postCount) :
    growPost s n =
      ((s.setRec n
        { s.rtb.recs[n] with length := s.rtb.recs[n].length + 1, post := s.rtb.recs[n].post + 1 }).sealRec n
          false).afterSeal :=
  if_pos h

/-! ## The trigger row -/

theorem takeTrigger_part (seq : BitVec 32) (causes : Sources) (early : Bool) :
    CommitPart s (takeTrigger s n seq causes early) := by
  unfold takeTrigger
  simp only
  split
  · exact (((State.setRec_part s n _).trans (State.setSticky_part _ _)).trans (State.sealRec_part _ n false)).trans
      (State.afterSeal_part _)
  · exact ((State.setRec_part s n _).trans (State.setSticky_part _ _)).trans
      ⟨rfl, rfl, rfl, rfl, rfl, rfl, rfl, rfl, fun b hb => by cases b <;> first | (exfalso; simp at hb; done) | rfl⟩

/-- R58 with a post count above 0: the record has its trigger row, TRIGGER is set, and ACQ is POST. -/
theorem takeTrigger_spec (seq : BitVec 32) (causes : Sources) (early : Bool) (h : s.acq.cfg.postCount ≠ 0) :
    (∀ m : Fin 8, (takeTrigger s n seq causes early).rtb.recs[m] =
        if m = n then s.rtb.recs[n].triggered seq causes early else s.rtb.recs[m]) ∧
      (takeTrigger s n seq causes early).rtb.order = s.rtb.order ∧
      (takeTrigger s n seq causes early).acq.state = .post n ∧ (takeTrigger s n seq causes early).tru = s.tru ∧
      (takeTrigger s n seq causes early).evu = { s.evu with sticky := { s.evu.sticky with trigger := true } } ∧
      (takeTrigger s n seq causes early).stm = s.stm := by
  have e : takeTrigger s n seq causes early =
      { (s.setRec n (s.rtb.recs[n].triggered seq causes early)).setSticky { s.evu.sticky with trigger := true } with
        acq := { s.acq with state := .post n } } := if_neg h
  rw [e]
  exact ⟨fun _ => State.setRec_get .., rfl, rfl, rfl, rfl, rfl⟩

/-- R58 with post count 0: the trigger row is the record's last. -/
theorem takeTrigger_seals (seq : BitVec 32) (causes : Sources) (early : Bool) (h : s.acq.cfg.postCount = 0) :
    takeTrigger s n seq causes early =
      ((((s.setRec n (s.rtb.recs[n].triggered seq causes early)).setSticky
        { s.evu.sticky with trigger := true }).sealRec n false).afterSeal) :=
  if_pos h

/-! ## The whole commit -/

/-- A commit that waits is served in a running state, with the port free for it. -/
theorem exec_rowCommit {s : State} {row : List Word} {n : Fin 8} (h : s.cnv.scan = .presented row)
    (ho : s.acq.state.openRec = some n) (hs : CommitServed s) (hr : RingSound s) :
    exec .rowCommit s = .next (commitRecord s row) := by
  have hw : s.acq.writer < Config.sheetRows := by
    unfold RingSound at hr
    simp only [Config.sheetRows]
    omega
  have hb : s.ble.busy = false := by
    cases hb : s.ble with
    | run r => exact hs.2.2 r hb
    | _ => rfl
  show execRowCommit s = _
  rw [execRowCommit, State.unlessHeld_of hs.1, h]
  simp [State.timerRunning, ho, hs.2.1, hw, hb]

/-- Step 5 of a commit keeps what steps 1 to 4 did (R55). -/
theorem commitRecord_part {s : State} (row : List Word) {n : Fin 8} (ho : s.acq.state.openRec = some n) :
    CommitPart (commitRow s row) (commitRecord s row) := by
  unfold commitRecord
  cases hs : s.acq.state with
  | idle => simp [hs, AcqState.openRec] at ho
  | starved => simp [hs, AcqState.openRec] at ho
  | pre m =>
    simp only
    split
    · exact takeTrigger_part ..
    · exact growPre_part ..
  | waittrig m =>
    simp only
    split
    · exact takeTrigger_part ..
    · exact slideWait_part ..
  | post m => exact growPost_part ..

end Sys2Proof.Machine
end

