-- ==== Sys2Proof/Laws/Engine.lean ====
section
/-! SUPPORT. What the end of an element does: proofs of the block operations cite these. -/

namespace Sys2Proof.Machine

variable {s u : State}

/-- The end of an element leaves the sheet and the converter. -/
theorem State.endElement_sst (s : State) (r : Running) (answer : Option (Status × Detail)) :
    (s.endElement r answer).sst = s.sst ∧ (s.endElement r answer).cnv = s.cnv := by
  unfold State.endElement
  split
  · exact ⟨rfl, rfl⟩
  · split <;> exact ⟨rfl, rfl⟩

/-- A command is answered from a state in which the record table and the result queue are as before the element. -/
theorem State.post_answeredFrom {c : Staged} {st : Status} {progress : Nat} {d : Detail} (h : .pending ∈ s.rq)
    (hq : u.rq = s.rq) (ht : u.rtb = s.rtb) : Answered s (u.post c st progress d) c st progress d := by
  obtain ⟨a, ⟨b1, b2⟩, c⟩ := State.post_answered (s := u) (c := c) (st := st) (progress := progress) (d := d) (hq ▸ h)
  rw [ht] at b1
  simp only [ht] at b2
  rw [hq] at c
  exact ⟨a, ⟨b1, b2⟩, c⟩

/-- The end of an element, from a state that differs from the one before it in the sheet alone (R124, R138, R140). -/
theorem State.endElement_done (r : Running) (answer : Option (Status × Detail)) (hp : .pending ∈ s.rq)
    (hK : KeptBut [.sst] s u) : ElementDone s (u.endElement r answer) r answer := by
  have e1 : u.rq = s.rq := hK .rq (by simp)
  have e2 : u.rtb = s.rtb := hK .rtb (by simp)
  have e3 : u.xf = s.xf := hK .xf (by simp)
  have hblocks : KeptBut [.sst, .ble, .rq, .rtb, .xf] u (u.endElement r answer) := by
    unfold State.endElement
    by_cases ha : r.aborting = true
    · simp only [ha, if_true]
      intro b hb; cases b <;> first | (exfalso; simp at hb; done) | rfl
    · simp only [ha, Bool.false_eq_true, if_false]
      cases answer <;> intro b hb <;> cases b <;> first | (exfalso; simp at hb; done) | rfl
  refine ⟨(hK.mono (by simp)).trans hblocks, ?_⟩
  unfold State.endElement
  by_cases ha : r.aborting = true
  · simp only [ha, if_true]
    obtain ⟨a, b, c⟩ :=
      State.post_answeredFrom (c := r.cmd) (st := .aborted) (progress := r.progress) (d := .none) hp e1 e2
    exact ⟨⟨a, b, c⟩, by simp [XfEmptied, e3]⟩
  · simp only [ha, Bool.false_eq_true, if_false]
    cases answer with
    | none => exact ⟨e3, rfl, e1, e2⟩
    | some x => exact ⟨e3, State.post_answeredFrom hp e1 e2⟩

end Sys2Proof.Machine
end

