-- ==== Sys2Proof/Laws/Operands.lean ====
section
/-! SUPPORT. The checks of a command in the words of the spec, the fields of a sample word that is built, and the word
of a combining MOVE: proofs cite these and unfold no operand form. -/

namespace Sys2Proof.Machine

/-! ## Kinds and rectangles -/

/-- The kind by its number, and the rectangles it uses (R91, R103, R104). -/
theorem Staged.kind_spec (c : Staged) :
    c.rects = c.usedCoords ∧ ((∃ k, c.kind = some k) ↔ 1 ≤ c.kindNumber ∧ c.kindNumber ≤ 6) ∧
      (c.kind = some .move ↔ c.kindNumber = 1) ∧ (c.kind = some .fill ↔ c.kindNumber = 2) ∧
      (c.kind = some .srch ↔ c.kindNumber = 3) ∧ (c.kind = some .rduc ↔ c.kindNumber = 4) ∧
      (c.kind = some .xrd ↔ c.kindNumber = 5) ∧ (c.kind = some .xwr ↔ c.kindNumber = 6) := by
  have hlt : c.kindNumber < 16 := BitVec.isLt _
  have hk : c.kind = match c.kindNumber with
    | 1 => some .move
    | 2 => some .fill
    | 3 => some .srch
    | 4 => some .rduc
    | 5 => some .xrd
    | 6 => some .xwr
    | _ => none := rfl
  unfold Staged.rects Staged.usedCoords
  rw [hk]
  interval_cases h : c.kindNumber <;> simp

/-- The BAD_KIND check (R103). -/
theorem Staged.kindOk_iff (c : Staged) : c.kindOk = true ↔ c.named := by
  obtain ⟨-, h, h1, -, h3, -⟩ := c.kind_spec
  have hop : c.op.isSome = true ↔ 1 ≤ field c.ctl 4 4 ∧ field c.ctl 4 4 ≤ 6 := by
    have hlt : field c.ctl 4 4 < 16 := BitVec.isLt _
    unfold Staged.op
    interval_cases h : field c.ctl 4 4 <;> simp
  have hcond : c.cond.isSome = true ↔ 1 ≤ field c.param 13 3 := by
    have hlt : field c.param 13 3 < 8 := BitVec.isLt _
    unfold Staged.cond
    interval_cases h : field c.param 13 3 <;> simp
  unfold Staged.kindOk Staged.named
  cases hk : c.kind with
  | none => simp [hk] at h; simp; omega
  | some k =>
    rw [hk] at h h1 h3
    have h' := h.mp ⟨k, rfl⟩
    cases k <;> simp at h1 h3 <;> simp [h', h1, h3, hop, hcond]

/-- The BAD_RECT check (R104). -/
theorem Staged.rectOk_iff (c : Staged) (rtb : RecordTable) : c.rectOk rtb = true ↔ c.inBounds rtb := by
  obtain ⟨hr, -, -, -, h3, -⟩ := c.kind_spec
  unfold Staged.rectOk Staged.inBounds
  rw [hr]
  have : (c.kind == some Kind.srch) = decide (c.kindNumber = 3) := by
    rw [Bool.eq_iff_iff]; simp [h3]
  rw [this]
  simp only [Bool.and_eq_true, decide_eq_true_eq, Bool.or_eq_true, Bool.not_eq_true', decide_eq_false_iff_not,
    beq_iff_eq, List.all_eq_true, Coord.fits, Config.sheetCols, Config.sheetRows]
  constructor
  · rintro ⟨⟨a, b⟩, d⟩
    refine ⟨a, fun h => by tauto, fun q hq => ?_⟩
    obtain ⟨e, f⟩ := d q hq
    refine ⟨e, fun h => by simpa [h] using f, fun h hh => ?_⟩
    rw [if_pos h, Bool.or_eq_true, Bool.not_eq_true', beq_eq_false_iff_ne, decide_eq_true_eq] at f
    exact f.resolve_left fun hn => hn hh
  · rintro ⟨a, b, d⟩
    refine ⟨⟨a, by tauto⟩, fun q hq => ?_⟩
    obtain ⟨e, f, g⟩ := d q hq
    refine ⟨e, ?_⟩
    cases hrel : q.relative
    · simpa using f hrel
    · rw [if_pos rfl, Bool.or_eq_true, Bool.not_eq_true', beq_eq_false_iff_ne, decide_eq_true_eq]
      by_cases hs : rtb.recs[q.record].state = .sealed
      · exact Or.inr (g hrel hs)
      · exact Or.inl hs

/-- The records a command references (R91). -/
theorem Staged.mem_refs (c : Staged) (n : Fin 8) : n ∈ c.refs ↔ c.references n := by
  unfold Staged.refs Staged.references
  rw [c.kind_spec.1]
  simp [and_assoc]

/-- The BAD_RECORD check (R105). -/
theorem Staged.recordsOk_iff (c : Staged) (rtb : RecordTable) :
    c.recordsOk rtb = true ↔ ∀ q ∈ c.usedCoords, q.relative = true → rtb.recs[q.record].state = .sealed := by
  unfold Staged.recordsOk Staged.refs
  rw [c.kind_spec.1]
  simp only [List.all_eq_true, List.mem_map, List.mem_filter, beq_iff_eq]
  constructor
  · exact fun h q hq hr => h _ ⟨q, ⟨hq, hr⟩, rfl⟩
  · rintro h _ ⟨q, ⟨hq, hr⟩, rfl⟩
    exact h q hq hr

/-- The BAD_PARAM check on a command that names its condition (R106). -/
theorem Staged.paramOk_iff (c : Staged) (h : c.named) :
    c.paramOk = true ↔ (c.kindNumber = 3 ∧ field c.param 13 3 ≤ 4 → c.threshold ≤ 4095) := by
  obtain ⟨-, -, -, -, h3, -⟩ := c.kind_spec
  unfold Staged.paramOk
  by_cases hk : c.kind = some .srch
  · rw [hk]
    have hk3 := h3.mp hk
    have hc := h.2.2 hk3
    have hlt : field c.param 13 3 < 8 := BitVec.isLt _
    unfold Staged.cond
    interval_cases h : field c.param 13 3 <;> simp [hk3]
  · have : c.kindNumber ≠ 3 := fun h => hk (h3.mpr h)
    simp only [this, false_and, false_imp_iff, iff_true]
    cases hkk : c.kind with
    | none => rfl
    | some k => cases k <;> first | rfl | exact absurd hkk hk

/-! ## Sample words -/

/-- CODE is 0 to 4095. -/
theorem codeOf_le (w : Word) : codeOf w ≤ 4095 := by
  have : codeOf w < 4096 := BitVec.isLt _
  omega

/-- A bit of a word given as a number. -/
theorem getLsbD_ofNat16 (n i : Nat) (hi : i < 16) : (BitVec.ofNat 16 n).getLsbD i = decide (n / 2 ^ i % 2 = 1) := by
  rw [BitVec.getLsbD_ofNat, Nat.testBit_eq_decide_div_mod_eq]
  simp [hi]

/-- A field of a word given as a number. -/
theorem field_ofNat16 (n lo len : Nat) (h : lo + len ≤ 16) :
    field (BitVec.ofNat 16 n) lo len = n / 2 ^ lo % 2 ^ len := by
  unfold field
  rw [BitVec.extractLsb'_toNat, BitVec.toNat_ofNat, Nat.shiftRight_eq_div_pow]
  have : (2 : Nat) ^ 16 = 2 ^ lo * (2 ^ len * 2 ^ (16 - lo - len)) := by
    rw [← pow_add, ← pow_add]
    congr 1
    omega
  rw [this, Nat.mod_mul_right_div_self, Nat.mod_mul_right_mod]

/-- A word built from its fields has those fields and VOID clear. -/
theorem validWord_spec (code : Nat) (undr ovr mark : Bool) (h : code ≤ 4095) :
    isVoid (validWord code undr ovr mark) = false ∧ isOver (validWord code undr ovr mark) = ovr ∧
      isUnder (validWord code undr ovr mark) = undr ∧ isMark (validWord code undr ovr mark) = mark ∧
      codeOf (validWord code undr ovr mark) = code := by
  unfold validWord isVoid isOver isUnder isMark codeOf
  rw [Nat.mod_eq_of_lt (by omega), field_ofNat16 _ _ _ (by omega), getLsbD_ofNat16 _ 15 (by omega),
    getLsbD_ofNat16 _ 14 (by omega), getLsbD_ofNat16 _ 13 (by omega), getLsbD_ofNat16 _ 12 (by omega)]
  cases undr <;> cases ovr <;> cases mark <;> simp only [bitsToNat, Bool.toNat_true, Bool.toNat_false] <;>
    (and_intros <;> first | exact decide_eq_true (by omega) | exact decide_eq_false (by omega) | (rw [pow_zero]; omega))

/-- The word of a combining OP from two valid words (R128). -/
theorem combine_spec (op : MoveOp) (a b : Word) (hop : op ≠ .copy) (ha : isVoid a = false) (hb : isVoid b = false) :
    isVoid (combine op a b) = false ∧ isOver (combine op a b) = (isOver a || isOver b) ∧
      isUnder (combine op a b) = (isUnder a || isUnder b) ∧ isMark (combine op a b) = (isMark a || isMark b) ∧
      codeOf (combine op a b) =
        match op with
        | .copy => codeOf a
        | .adds => min (codeOf a + codeOf b) 4095
        | .subs => codeOf b - codeOf a
        | .min => min (codeOf a) (codeOf b)
        | .max => max (codeOf a) (codeOf b)
        | .mean => (codeOf a + codeOf b) / 2 := by
  have ca := codeOf_le a
  have cb := codeOf_le b
  cases op with
  | copy => exact absurd rfl hop
  | adds => simp only [combine, combine.merge, ha, hb]; exact validWord_spec _ _ _ _ (Nat.min_le_right _ _)
  | subs => simp only [combine, combine.merge, ha, hb]; exact validWord_spec _ _ _ _ (by omega)
  | min => simp only [combine, combine.merge, ha, hb]; exact validWord_spec _ _ _ _ (le_trans (Nat.min_le_right _ _) cb)
  | max => simp only [combine, combine.merge, ha, hb]; exact validWord_spec _ _ _ _ (Nat.max_le.mpr ⟨ca, cb⟩)
  | mean => simp only [combine, combine.merge, ha, hb]; exact validWord_spec _ _ _ _ (by omega)

/-- A combining OP with a void word (R129). -/
theorem combine_void (op : MoveOp) (a b : Word) (hop : op ≠ .copy) :
    (isVoid a = true → combine op a b = voidWord) ∧ (isVoid a = false → isVoid b = true → combine op a b = a) := by
  cases op <;> simp_all [combine, combine.merge]

end Sys2Proof.Machine
end

