-- ==== Sys2Proof/Tests/Slice0.lean ====
section
/-! SUPPORT. Tests on fixed values, each expected result taken from the spec, and for every statement with hypotheses a
witness: a concrete state and operands that meet them. -/

namespace Sys2Proof.Tests

-- One theorem at a time: the kernel evaluations of this file otherwise all run at once.
set_option Elab.async false

open Sys2Proof.Machine

/-! ## Small states -/

/-- The part after the sweep. -/
def swept : State := { State.reset with sst := ⟨[], 32768⟩ }

/-- The state after a command, if it goes on. -/
def after (c : Instr) (s : State) : Option State :=
  match exec c s with
  | .next t => some t
  | _ => none

/-- After a list of commands. -/
def afterAll : List Instr → State → Option State
  | [], s => some s
  | c :: cs, s => (after c s).bind (afterAll cs)

/-- With this ACQ state and descriptor 0. -/
def withRecord (st : AcqState) (d : Descriptor) (s : State) : State :=
  { s.setRec 0 d with acq := { s.acq with state := st } }

/-- With this ACQ table. -/
def withTable (f : AcqTable → AcqTable) (s : State) : State := { s with acq := { s.acq with cfg := f s.acq.cfg } }

/-- With a row at the store port. -/
def withRow (row : List Word) (s : State) : State := { s with cnv := { s.cnv with scan := .presented row } }

/-- With this running command, its place pending, one ticket taken. -/
def withEngine (e : Engine) (s : State) : State :=
  { s with ble := e, rq := [.pending], cq := { s.cq with tickets := 7 } }

/-- With these words in XF. -/
def withXf (words : List Word) (timeout : Option Nat) (s : State) : State :=
  { s with xf := { s.xf with words := words, timeout := timeout } }

/-- With these staging words. -/
def withStaging (c : Staged) (s : State) : State := { s with cq := { s.cq with staging := c } }

/-- A command of this control word and rectangle size, absolute at row 1024, column 0; the destination one row on. -/
def cmd (ctl param : Word) (w h : Nat) : Staged :=
  ⟨ctl, 7#16, 0x400#16, 0x401#16, 0#16, BitVec.ofNat 16 w, BitVec.ofNat 16 h, param⟩

/-- A record-relative source at record 2, this offset and column 12 (R104's example). -/
def relative (offset w h : Nat) : Staged :=
  ⟨5#16, 7#16, BitVec.ofNat 16 (32768 + 2048 * 12 + offset), 0#16, 2#16, BitVec.ofNat 16 w, BitVec.ofNat 16 h, 0#16⟩

/-- A sealed record of 8 rows, started at ring row 0. -/
def sealed8 : Descriptor := ⟨.sealed, 0, 8, 3, 4, 4, 0#32, ⟨true, false, false, false⟩, false, false, false, 0⟩

/-- An open record with these counts, started at ring row 0. -/
def open0 (length pre post : Nat) (causes : Sources) : Descriptor :=
  ⟨.opened, 0, length, pre, post, 1, 0#32, causes, false, false, false, 0⟩

/-- ACQ in WAITTRIG with open record 0, the timer loaded. -/
def waiting : State :=
  { withRecord (.waittrig 0) (open0 0 0 0 Sources.none) swept with stm := ⟨65536, 65536, 0, false, false⟩ }

/-- Record 2 is SEALED with LENGTH 8. -/
def withSealed (s : State) : State :=
  { s with rtb := ⟨s.rtb.recs.set 2 sealed8, [2]⟩ }

/-- A running command at its start, with an access in progress or not. -/
def running (c : Staged) (busy : Bool) : Running := { Running.start c with busy := busy }

/-! ## Well-formed terms -/

/-- Code 4 is TRIG, and no bad code (spec 11 §11.4). -/
theorem test_wellFormed_refuses_named_code : (Instr.badCodeRequest 4#4).wellFormed = false := by decide

/-- Word 0x02 is EVENTS, which has a row of its own. -/
theorem test_wellFormed_refuses_events_offset : (Instr.windowWrite 0x02#5 0#16).wellFormed = false := by decide

/-- Codes 0 and 10 to 15 name no request, and the words without a row of their own are plain. -/
theorem test_wellFormed_accepts :
    (Instr.badCodeRequest 0#4).wellFormed && (Instr.badCodeRequest 10#4).wellFormed &&
      (Instr.badCodeRequest 15#4).wellFormed && (Instr.windowWrite 0x01#5 0#16).wellFormed &&
      (Instr.windowWrite 0x07#5 0#16).wellFormed && (Instr.windowWrite 0x1F#5 0#16).wellFormed := by decide

/-- R170, 11.4: the word 0x0079 in REQ is RLS, code 9, with n = 7; 0x0FF4 is TRIG, code 4, which has no argument; 0x000A
names no request. -/
theorem test_requestOf :
    [0x0079, 0x0FF4, 0x000A].map (decodeTableWord 16) =
      [some (.rls 7#12), some .trig, some (.badCodeRequest 10#4)] := by decide

/-- No word of another length spells a command. -/
theorem test_no_word_decodes : decodeTableWord 8 2 = none := by decide

/-- The request a word spells stands at the front of the queue. -/
theorem test_withFetchWord : (State.reset.withFetchWord 16 2).pending = [.arm] := by decide +kernel

/-! ## Resets and requests -/

/-- R171, R165: after a power-on reset the outcome word reads 0 and STATUS shows INIT busy. -/
theorem test_powerOnReset :
    (after (.powerOnReset false true ⟨false, true⟩) swept).map (fun t => (t.readWindow 0x00#5, t.readWindow 0x01#5)) =
      some (0#16, 0x18#16) := by decide +kernel

/-- R174: while RESET is held a write has no effect, a read returns 0, and the reset ends with the next one. -/
theorem test_reset_held :
    (afterAll [.powerOnReset true false ⟨false, false⟩, .tptrWrite 0x0101#16] swept).map
        (fun t => (t.hpi.index, t.readWindow 0x01#5, t.irq)) = some (0, 0#16, false) ∧
      (afterAll [.powerOnReset true false ⟨false, false⟩, .powerOnReset false false ⟨false, false⟩, .tptrWrite 0x0101#16]
          swept).map (fun t => t.readWindow 0x04#5) = some 0x0101#16 := by decide +kernel

/-- R13: the sweep row reads 2048 once the sweep has ended. -/
theorem test_initSweepEnd :
    (after .initSweepEnd State.reset).map (fun t => (t.countWord 7, t.sweeping)) = some (2048#16, false) := by
  decide +kernel

/-- R171: SRST leaves code 1 with ACCEPTED, code 1. -/
theorem test_srst : (after .srst waiting).map (fun t => (t.readWindow 0x00#5, t.acq.state)) =
    some (0x0101#16, .idle) := by decide +kernel

/-- R52: with pre count 0 ARM enters WAITTRIG with record 0. -/
theorem test_arm : (after .arm swept).map (fun t => (t.acq.state, t.rtb.recs[0].columns)) = some (.waittrig 0, 1) := by
  decide +kernel

/-- R50: with pre count 1024 one record does not fit the ring of 1024 rows: BAD_GEOMETRY, code 8. -/
theorem test_arm_badGeometry :
    (after .arm (withTable (fun t => { t with preCount := 1024 }) swept)).map (fun t => t.readWindow 0x00#5) =
      some 0x0802#16 := by decide +kernel

/-- R66: STOP in POST with 2 of 4 post rows seals the record TRUNCATED, with LENGTH 3 + 1 + 2. -/
theorem test_stop_truncates :
    (after .stop (withRecord (.post 0) (open0 6 3 2 ⟨true, false, false, false⟩) swept)).map
        (fun t => (t.rtb.recs[0].state, t.rtb.recs[0].truncated, t.rtb.recs[0].length, t.evu.sticky.sealed)) =
      some (.sealed, true, 6, true) := by decide +kernel

/-- R71: TRIG in IDLE is refused NOT_ARMED, code 4; in WAITTRIG it sets the latch. -/
theorem test_trig :
    (after .trig swept).map (fun t => t.readWindow 0x00#5) = some 0x0404#16 ∧
      (after .trig waiting).map (fun t => t.tru.host) = some true := by decide +kernel

/-- R104's example: offset 5, column 12 of a record of 8 rows takes WIDTH 4 and HEIGHT 3, and refuses WIDTH 5. -/
theorem test_submit_bounds :
    (after .submit (withStaging (relative 5 4 3) (withSealed swept))).map
        (fun t => (t.readWindow 0x00#5, t.rtb.recs[2].pins, t.cq.tickets)) = some (0x0105#16, 1, 7) ∧
      (after .submit (withStaging (relative 5 5 3) (withSealed swept))).map (fun t => t.readWindow 0x00#5) =
        some 0x0C05#16 := by decide +kernel

/-- R139: ABORT with no command running is refused NOTHING, code 17; R141: in XWAIT it answers at once. -/
theorem test_abort :
    (after .abort swept).map (fun t => t.readWindow 0x00#5) = some 0x1106#16 ∧
      (after .abort (withEngine (.xwait (running (cmd 6#16 0#16 1 1) false)) swept)).map (fun t => t.readWindow 0x10#5) =
        some 0x4607#16 := by decide +kernel

/-- R115: FLUSH answers FLUSHED, code 5, with the command's TAG and KIND; with an empty queue it is refused EMPTY. -/
theorem test_flush :
    (after .flush swept).map (fun t => t.readWindow 0x00#5) = some 0x1007#16 ∧
      (after .flush { swept with cq := ⟨Staged.zero, [cmd 2#16 0#16 1 1], 7⟩ }).map (fun t => t.readWindow 0x10#5) =
        some 0x5207#16 := by decide +kernel

/-- R114: POP returns the ticket of the entry it removes. -/
theorem test_pop :
    (after .pop { swept with rq := [.posted ⟨1#8, 2#4, .done, 1, .none⟩], cq := ⟨Staged.zero, [], 7⟩ }).map
      (fun t => (t.rq, t.cq.tickets)) = some ([], 8) := by decide +kernel

/-- R93: record 8 does not exist, BAD_RECORD, code 13; a FREE descriptor is NOT_SEALED, code 19. -/
theorem test_rls :
    (after (.rls 8#12) swept).map (fun t => t.readWindow 0x00#5) = some 0x0D09#16 ∧
      (after (.rls 7#12) swept).map (fun t => t.readWindow 0x00#5) = some 0x1309#16 := by decide +kernel

/-- R14, R170: code 10 is refused INIT, code 2, during the sweep and BAD_CODE, code 21, after it. -/
theorem test_badCode :
    (after (.badCodeRequest 10#4) State.reset).map (fun t => t.readWindow 0x00#5) = some 0x020A#16 ∧
      (after (.badCodeRequest 10#4) swept).map (fun t => t.readWindow 0x00#5) = some 0x150A#16 := by decide +kernel

/-! ## Scans -/

/-- Spec 02, the period example: at the expiry after the write of 500 the counter is reloaded with 500. -/
theorem test_timerExpiry :
    (after .timerExpiry
        { withTable (fun t => { t with period := 500#16 }) waiting with stm := ⟨250, 1, 0, false, false⟩ }).map
      (fun t => (t.stm.active, t.stm.counter)) = some (500, 500) := by decide +kernel

/-- R26: a second event while a scan is in progress is late: dropped scan counted, GAP on the open record. -/
theorem test_late_scan :
    (after .timerExpiry { waiting with cnv := { waiting.cnv with scan := .converting ⟨[], 3, 0, 0⟩ } }).map
      (fun t => (t.acq.dropped, t.evu.sticky.late, t.rtb.recs[0].gap, t.cnv.scan)) =
      some (1, true, true, .converting ⟨[], 3, 0, 0⟩) := by decide +kernel

/-- R23: in EXTERNAL mode a rising edge starts a scan, and a level held gives no further one. -/
theorem test_scanEdge :
    (after (.scanEdge true) (withTable (fun t => { t with timerMode := .external }) waiting)).map (fun t => t.cnv.scan) =
        some (.converting ⟨[], 0, 0, 0⟩) ∧
      (after (.scanEdge true)
          { withTable (fun t => { t with timerMode := .external }) waiting with
            stm := ⟨65536, 65536, 0, false, true⟩ }).map (fun t => t.cnv.scan) = some .free := by decide +kernel

/-- R22: polarity LOW makes a low GATE line active. -/
theorem test_gateChange :
    (after (.gateChange false) (withTable (fun t => { t with gateLow := true }) waiting)).map State.gateActive =
      some true := by decide +kernel

/-- R72: with polarity FALL the falling edge sets the LINE latch. -/
theorem test_trigEdge :
    (after (.trigEdge false)
        { withTable (fun t => { t with lineFall := true, mask := ⟨false, true, false, false⟩ }) waiting with
          tru := ⟨false, false, false, 0, true⟩ }).map (fun t => (t.tru.line, t.tru.sample)) = some (true, false) := by
  decide +kernel

/-- A slot with limits 600 and 3000 and AVERAGE 2. -/
def limitSlot : Slot := ⟨.ain 0, .supply, true, 0#8, .two, 600#12, 3000#12⟩

/-- R37, R39: codes 3000 and 3003 average to 3001, above HIGH 3000; only the first two conversions count. -/
theorem test_slotEnd :
    (after (.slotEnd #v[3000#12, 3003#12, 1#12, 1#12, 1#12, 1#12, 1#12, 1#12])
        { waiting with cnv := ⟨waiting.cnv.slots.set 0 limitSlot, .converting ⟨[], 28, 0, 0⟩⟩ }).map
      (fun t => t.cnv.scan) = some (.presented [0x2BB9#16]) := by decide +kernel

/-- R54, R63: with the writer row in a SEALED arc the row is dropped. -/
theorem test_slotEnd_blocked :
    (after (.slotEnd (Vector.replicate 8 0#12))
        { withSealed waiting with cnv := ⟨waiting.cnv.slots, .converting ⟨[], 14, 0, 0⟩⟩ }).map
      (fun t => (t.cnv.scan, t.acq.dropped, t.evu.sticky.blocked, t.rtb.recs[0].gap)) =
      some (.free, 1, true, true) := by decide +kernel

/-- R58, R3: a commit with the HOST latch set takes the trigger: MARK in the active column, VOID beyond it. -/
theorem test_rowCommit_triggers :
    (after .rowCommit
        (withTable (fun t => { t with postCount := 4 })
          { withRow [100#16] waiting with tru := ⟨true, false, false, 0, false⟩ })).map
      (fun t => (t.acq.state, t.sst.cells, t.rtb.recs[0].length, t.acq.writer)) =
      some (.post 0, [(0, 0x4064#16)], 1, 1) := by decide +kernel

/-- R61: with post count 0 and REARM set the record seals and the next FREE descriptor opens at the new writer row. -/
theorem test_rowCommit_rearms :
    (after .rowCommit
        (withTable (fun t => { t with rearm := true })
          { withRow [100#16] waiting with tru := ⟨true, false, false, 0, false⟩ })).map
      (fun t => (t.acq.state, t.rtb.order, t.rtb.recs[1].start)) = some (.waittrig 1, [0], 1) := by decide +kernel

/-! ## The engine -/

/-- R121: with ACQ not IDLE a command on the ring is answered RING_BUSY, code 7; R146: an XWR starts in XWAIT. -/
theorem test_take :
    (after .take { waiting with cq := ⟨Staged.zero, [⟨2#16, 7#16, 0#16, 0#16, 0#16, 1#16, 1#16, 0#16⟩], 7⟩ }).map
        (fun t => (t.readWindow 0x10#5, t.ble.code)) = some (0x7207#16, 0) ∧
      (after .take { swept with cq := ⟨Staged.zero, [cmd 6#16 0#16 1 1], 7⟩ }).map (fun t => t.ble.code) =
        some 2 := by decide +kernel

/-- A MOVE of one word with this OP from `a` to `b`: the destination word after it. -/
def moved (op : MoveOp) (ctl a b : Word) : Option Word :=
  (after (moveInstr op)
      { withEngine (.run (running (cmd ctl 0#16 1 1) true)) swept with
        sst := ⟨Sheet.write (Sheet.write [] 16384 a) 16400 b, 32768⟩ }).map fun t => t.wordAt 16400

/-- R11, R12: with a row at the port a MOVE in its source read ends that access and waits; the commit follows, and the
element then ends with the word read before it. A FILL not yet begun waits behind the commit. -/
theorem test_port_order :
    (let s := { withRow [100#16] { waiting with ble := .run (running (cmd 0x21#16 0#16 1 1) true), rq := [.pending] } with
        sst := ⟨[(16384, 3#16), (16400, 4#16)], 32768⟩ };
      (after .rowCommit s).map (fun t => t.acq.writer) = some 0 ∧
        (after .moveAdds s).map (fun t => (t.wordAt 16400, t.ble.busy)) = some (4#16, false) ∧
        (afterAll [.moveAdds, .rowCommit, .moveAdds] s).map (fun t => (t.acq.writer, t.wordAt 16400, t.ble.code)) =
          some (1, 7#16, 0)) ∧
      (afterAll [.fill, .rowCommit]
          (withRow [100#16] { waiting with ble := .run (running (cmd 2#16 9#16 1 1) false), rq := [.pending] })).map
        (fun t => (t.acq.writer, t.wordAt 16400)) = some (1, 0x8000#16) := by decide +kernel

/-- R127: COPY takes a void source word with its other fields. -/
theorem test_moveCopy : moved .copy 0x11#16 0xA4D2#16 5#16 = some 0xA4D2#16 := by decide +kernel

/-- R128's example: 3000 and 2000 saturate at 4095, and OVER is carried. -/
theorem test_moveAdds : moved .adds 0x21#16 3000#16 2000#16 = some 4095#16 ∧
    moved .adds 0x21#16 (0x2000#16 + 3000#16) 2000#16 = some (0x2000#16 + 4095#16) := by decide +kernel

/-- R128's example: the destination 2 minus the source 1 is 1, and 2000 minus 3000 is 0. -/
theorem test_moveSubs : moved .subs 0x31#16 1#16 2#16 = some 1#16 ∧ moved .subs 0x31#16 3000#16 2000#16 = some 0#16 := by
  decide +kernel

/-- R128: a MIN of a word with OVER and a word with UNDER has both. -/
theorem test_moveMin : moved .min 0x41#16 0x2BB8#16 0x17D0#16 = some 0x37D0#16 := by decide +kernel

/-- R128's example, and R129: a void source under a combining OP gives the VOID word. -/
theorem test_moveMax : moved .max 0x51#16 3000#16 2000#16 = some 3000#16 ∧
    moved .max 0x51#16 0xA000#16 2000#16 = some 0x8000#16 := by decide +kernel

/-- R128's example: ⌊(1 + 2) / 2⌋ = 1; R129: SKIP_VOID keeps the destination. -/
theorem test_moveMean : moved .mean 0x61#16 1#16 2#16 = some 1#16 ∧
    moved .mean 0x461#16 0x8000#16 2000#16 = some 2000#16 := by decide +kernel

/-- R131: FILL writes PARAM and answers DONE, code 1. -/
theorem test_fill :
    (after .fill (withEngine (.run (running (cmd 2#16 0x9ABC#16 1 1) true)) swept)).map
      (fun t => (t.wordAt 16400, t.readWindow 0x10#5)) = some (0x9ABC#16, 0x1207#16) := by decide +kernel

/-- What a search of one word `w` with previous code 100 answers: STATUS. -/
def searched (cond : Cond) (param w : Word) : Option Word :=
  (after (srchInstr cond)
      { withEngine (.run { running (cmd 3#16 param 1 1) true with prev := some 100 }) swept with
        sst := ⟨Sheet.write [] 16384 w, 32768⟩ }).map fun t => t.readWindow 0x10#5

/-- R133, ABOVE: 101 is above 100, 100 is not. -/
theorem test_srchAbove : searched .above (0x2000#16 + 100#16) 101#16 = some 0x2307#16 ∧
    searched .above (0x2000#16 + 100#16) 100#16 = some 0x3307#16 := by decide +kernel

/-- R133, BELOW. -/
theorem test_srchBelow : searched .below (0x4000#16 + 100#16) 99#16 = some 0x2307#16 ∧
    searched .below (0x4000#16 + 100#16) 100#16 = some 0x3307#16 := by decide +kernel

/-- R133, RISE: the previous code 100 may equal the threshold. -/
theorem test_srchRise : searched .rise (0x6000#16 + 100#16) 101#16 = some 0x2307#16 ∧
    searched .rise (0x6000#16 + 99#16) 101#16 = some 0x3307#16 := by decide +kernel

/-- R133, FALL. -/
theorem test_srchFall : searched .fall (0x8000#16 + 100#16) 99#16 = some 0x2307#16 ∧
    searched .fall (0x8000#16 + 101#16) 99#16 = some 0x3307#16 := by decide +kernel

/-- R133, FLAGGED: UNDER is a flag, MARK is none; R2: a void word is not flagged. -/
theorem test_srchFlagged : searched .flagged 0xA000#16 0x1000#16 = some 0x2307#16 ∧
    searched .flagged 0xA000#16 0xB000#16 = some 0x3307#16 := by decide +kernel

/-- R133, MARKED. -/
theorem test_srchMarked : searched .marked 0xC000#16 0x4000#16 = some 0x2307#16 ∧
    searched .marked 0xC000#16 0xC000#16 = some 0x3307#16 := by decide +kernel

/-- R133, VOIDED. -/
theorem test_srchVoided : searched .voided 0xE000#16 0xA000#16 = some 0x2307#16 ∧
    searched .voided 0xE000#16 0#16 = some 0x3307#16 := by decide +kernel

/-- R135, R136: one valid word is minimum and maximum, at row 1024, which reads 1024 in its eleven bits. -/
theorem test_rduc :
    (after .rduc
        { withEngine (.run (running (cmd 4#16 0#16 1 1) true)) swept with sst := ⟨[(16384, 0x2064#16)], 32768⟩ }).map
      (fun t => [0x12#5, 0x13#5, 0x14#5, 0x15#5, 0x16#5, 0x18#5].map t.readWindow) =
      some [100#16, 100#16, 1024#16, 1024#16, 100#16, 1#16] := by decide +kernel

/-! ## Transfers -/

/-- R145, R137: the last source word is read into XF and the engine waits. -/
theorem test_xrd :
    (after .xrd
        { withEngine (.run (running (cmd 5#16 0#16 1 1) true)) swept with sst := ⟨[(16384, 9#16)], 32768⟩ }).map
      (fun t => (t.xf.words, t.ble.code)) = some ([9#16], 2) := by decide +kernel

/-- R146, R150: the last destination write answers DONE. -/
theorem test_xwr :
    (after .xwr (withXf [9#16] none (withEngine (.run (running (cmd 6#16 0#16 1 1) true)) swept))).map
      (fun t => (t.wordAt 16400, t.readWindow 0x10#5, t.xf.words)) = some (9#16, 0x1607#16, []) := by decide +kernel

/-- R148: with no XRD running a read returns the VOID word and sets XUNDER. -/
theorem test_xdataRead :
    (after .xdataRead swept).map (fun t => (t.busData, t.evu.sticky.xunder)) = some (0x8000#16, true) := by
  decide +kernel

/-- R149: with no XWR running a write is dropped with XOVER. -/
theorem test_xdataWrite :
    (after (.xdataWrite 5#16) swept).map (fun t => (t.xf.words, t.evu.sticky.xover)) = some ([], true) := by
  decide +kernel

/-- R153: the expiry answers TIMEOUT, code 6. -/
theorem test_transferTimeout :
    (after .transferTimeout (withXf [] (some 1) (withEngine (.xwait (running (cmd 6#16 0#16 1 1) false)) swept))).map
      (fun t => t.readWindow 0x10#5) = some 0x6607#16 := by decide +kernel

/-! ## The window -/

/-- R166's example: index 20 with the ACQ table stores 4. -/
theorem test_tptrWrite : (after (.tptrWrite 0x0114#16) swept).map (fun t => t.readWindow 0x04#5) = some 0x0104#16 := by
  decide +kernel

/-- R167: ACQ word 1 reads the ring length 1024, and auto-increment moves to word 2. -/
theorem test_tdataRead :
    (afterAll [.tptrWrite 0x8101#16, .tdataRead] swept).map (fun t => (t.busData, t.hpi.index)) = some (1024#16, 2) := by
  decide +kernel

/-- R7: ring length 15 is discarded with ACCESS; 16 is taken. -/
theorem test_tdataWrite :
    (afterAll [.tptrWrite 0x0101#16, .tdataWrite 15#16] swept).map (fun t => (t.acq.cfg.ringLength, t.evu.sticky.access)) =
        some (1024, true) ∧
      (afterAll [.tptrWrite 0x0101#16, .tdataWrite 16#16] swept).map
          (fun t => (t.acq.cfg.ringLength, t.evu.sticky.access)) = some (16, false) := by decide +kernel

/-- R159: a write of 1 to INIT clears it and leaves REFUSED. -/
theorem test_eventsWrite :
    (afterAll [.initSweepEnd, .stop, .eventsWrite 0x2000#16] State.reset).map
      (fun t => (t.evu.sticky.init, t.evu.sticky.refused)) = some (false, true) := by decide +kernel

/-- R161: enabling TICKET while tickets are free asserts the line at once. -/
theorem test_enablesWrite : (after (.enablesWrite 2#16) swept).map State.irq = some true := by decide +kernel

/-- R164: a staging word is written; an unassigned word sets ACCESS. -/
theorem test_windowWrite :
    (after (.windowWrite 0x0F#5 0xABCD#16) swept).map (fun t => t.cq.staging.param) = some 0xABCD#16 ∧
      (after (.windowWrite 0x1A#5 1#16) swept).map (fun t => t.evu.sticky.access) = some true := by decide +kernel

/-! ## Witnesses: states and operands that meet the hypotheses of the statements -/

/-- A command queued. -/
def queued (c : Staged) : State := { swept with cq := ⟨Staged.zero, [c], 7⟩ }

/-- A slot being converted. -/
def converting (c : Converting) (s : State) : State := { s with cnv := { s.cnv with scan := .converting c } }

/-- An engine in RUN with this command at its start. -/
def runs (c : Staged) : State := withEngine (.run (Running.start c)) swept

/-- The check of ARM on the running command, as a Boolean. -/
theorem running_clear (s : State) :
    (∀ r ∈ s.ble.running, r.cmd.overlapsRing s.acq.cfg = false) ↔
      (s.ble.running.all fun r => !r.cmd.overlapsRing s.acq.cfg) = true := by
  cases s.ble <;> simp [Engine.running]

/-- Every descriptor SEALED. -/
def fullTable : RecordTable := ⟨Vector.replicate 8 { sealed8 with length := 1 }, [0, 1, 2, 3, 4, 5, 6, 7]⟩

/-- With at most one descriptor held, the arcs are apart. -/
theorem arcs_of_one {s : State} (n : Fin 8) (h : ∀ m : Fin 8, m ≠ n → s.rtb.recs[m].state = .free) :
    ∀ m k : Fin 8, m ≠ k → s.rtb.recs[m].state ≠ .free → s.rtb.recs[k].state ≠ .free →
      ∀ r, s.acq.cfg.ringBase ≤ r → r < s.acq.cfg.ringBase + s.acq.cfg.ringLength →
        ¬(s.rtb.recs[m].holds s.acq.cfg r = true ∧ s.rtb.recs[k].holds s.acq.cfg r = true) := by
  intro m k hmk hm hk
  by_cases hn : m = n
  · exact absurd (h k fun hkn => hmk (hn.trans hkn.symm)) hk
  · exact absurd (h m hn) hm

/-- The part while RESET is held. -/
def heldReset : State := { State.reset with held := true }

/-- While no power-on reset lasts: every small state of these tests, and so every witness that is built of them. -/
theorem witness_notHeld (c : Staged) (row : List Word) (cv : Converting) :
    State.reset.held = false ∧ swept.held = false ∧ waiting.held = false ∧ (withSealed swept).held = false ∧
      (withSealed waiting).held = false ∧ (queued c).held = false ∧ (runs c).held = false ∧
      (withRow row waiting).held = false ∧ (converting cv waiting).held = false := ⟨rfl, rfl, rfl, rfl, rfl, rfl, rfl, rfl, rfl⟩

/-- IdleStepFrame: RESET held; something due; nothing due, in the sweep and after it; the engine in RUN. -/
theorem witness_IdleStepFrame :
    (heldReset.pending = [] ∧ heldReset.held = true) ∧
    ((queued (cmd 2#16 0#16 1 1)).pending = [] ∧ (queued (cmd 2#16 0#16 1 1)).dueNow ≠ []) ∧
      (State.reset.pending = [] ∧ State.reset.dueNow = [] ∧ SheetSound State.reset ∧ 1 ≠ State.reset.sst.sweepPos) ∧
      (swept.dueNow = [] ∧ swept.sweeping = false) ∧ (runs (cmd 2#16 0#16 1 1)).dueNow = [] := by
  unfold SheetSound; decide +kernel

/-- PeriodRunsTimerAndConverter, the timer: a running timer that counts, at 1 and above, with the gate inactive, in
EXTERNAL mode, and with the prescaler counting. -/
theorem witness_PeriodRunsTimer :
    (waiting.pending = [] ∧ waiting.dueNow = [] ∧ waiting.timerRunning = true ∧ TimerSound waiting ∧
        waiting.acq.cfg.timerMode = .continuous ∧ 1 < waiting.stm.counter) ∧
      (let s := { waiting with stm := ⟨65536, 1, 0, false, false⟩ };
        s.dueNow = [] ∧ s.timerRunning = true ∧ TimerSound s ∧ s.stm.counter = 1) ∧
      (let s := withTable (fun t => { t with timerMode := .gated }) waiting;
        s.dueNow = [] ∧ s.timerRunning = true ∧ TimerSound s ∧ s.gateActive = false) ∧
      (let s := withTable (fun t => { t with timerMode := .external }) waiting;
        s.dueNow = [] ∧ s.timerRunning = true ∧ TimerSound s) ∧
      let s := withTable (fun t => { t with prescaler := .p4 }) waiting;
      s.dueNow = [] ∧ s.timerRunning = true ∧ TimerSound s ∧ s.stm.prescale + 1 < s.acq.cfg.prescaler.num := by
  unfold TimerSound; and_intros <;> decide +kernel

/-- PeriodRunsTimerAndConverter, the sweep and the timeout: the first word and the last, a count of 2 and of 1, none. -/
theorem witness_PeriodRunsSweep :
    (State.reset.pending = [] ∧ State.reset.held = false ∧ State.reset.dueNow = [] ∧ State.reset.sweeping = true ∧
        SheetSound State.reset ∧ State.reset.sst.sweepPos + 1 < 32768 ∧ State.reset.xf.timeout = none) ∧
      (let s := { State.reset with sst := ⟨[], 32767⟩ };
        s.held = false ∧ s.dueNow = [] ∧ s.sweeping = true ∧ SheetSound s ∧ s.sst.sweepPos + 1 = 32768) ∧
      ∀ k ∈ [1, 2],
        let s := withXf [] (some k) (withEngine (.xwait (running (cmd 6#16 0#16 1 1) false)) swept);
        s.pending = [] ∧ s.held = false ∧ s.dueNow = [] ∧ s.xf.timeout = some k := by
  unfold SheetSound; and_intros <;> decide +kernel

/-- PeriodRunsTimerAndConverter, the converter: a conversion that goes on, one that ends, and the last one. -/
theorem witness_PeriodRunsConverter :
    ((converting ⟨[], 12, 0, 0⟩ waiting).dueNow = [] ∧ (12 + 1 < 14) ∧ 0 < waiting.cnv.slots[(0 : Fin 16)].average.num) ∧
      ((converting ⟨[], 13, 0, 0⟩ waiting).dueNow = [] ∧ 0 + 1 = waiting.cnv.slots[(0 : Fin 16)].average.num) ∧
      let s := { waiting with cnv := ⟨waiting.cnv.slots.set 0 limitSlot, .converting ⟨[], 13, 0, 0⟩⟩ };
      s.dueNow = [] ∧ 0 + 1 < s.cnv.slots[(0 : Fin 16)].average.num := by
  decide +kernel

/-- The invariants of one step: reset meets each, and its step goes on. -/
theorem witness_invariants :
    StoreSound State.reset ∧ SheetSound State.reset ∧ SweepSound State.reset ∧ RangesSound State.reset ∧
      TicketsSound State.reset ∧ ScanSound State.reset ∧ TimerSound State.reset ∧ LatchesSound State.reset ∧
      RingKeptClear State.reset ∧ ∃ t, step State.reset = .next t := by
  refine ⟨?_, ?_, ?_, ?_, ?_, ?_, ?_, ?_, ?_, ?_⟩
  · refine ⟨?_, ?_, ⟨?_, ?_⟩, ?_⟩
    · unfold RingSound; decide +kernel
    · unfold RecordsSound; decide +kernel
    · intro c h; cases h
    · show _ ∧ _; decide +kernel
    · unfold PinsSound; decide +kernel
  · unfold SheetSound; decide +kernel
  · unfold SweepSound; decide +kernel
  · unfold RangesSound; decide +kernel
  · unfold TicketsSound; decide +kernel
  · exact ⟨by decide +kernel, trivial⟩
  · unfold TimerSound; decide +kernel
  · unfold LatchesSound
    exact ⟨by decide, by decide, fun n h => by cases h⟩
  · unfold RingKeptClear; decide +kernel
  · exact ⟨_, step_nil rfl⟩

/-- CaptureKept: a held record, at the ring's first row. -/
theorem witness_CaptureKept :
    RingSound waiting ∧ RecordsSound waiting ∧ ScanSound waiting ∧ ShapesSound waiting ∧ ArcsSound waiting ∧
      ∃ t, step waiting = .next t := by
  refine ⟨?_, ?_, ?_, ?_, ⟨arcs_of_one 0 (by decide +kernel), ?_, ?_⟩, _, step_nil rfl⟩
  · unfold RingSound; decide +kernel
  · unfold RecordsSound; decide +kernel
  · exact ⟨by decide +kernel, trivial⟩
  · exact ⟨by decide +kernel, by decide +kernel, by decide +kernel, by decide +kernel⟩
  · decide +kernel
  · intro row h; cases h

/-- ScanTimerAndLatchesKept: a scan in progress, its slot with one of two conversions taken. -/
theorem witness_ScanKept :
    ScanSound { waiting with cnv := ⟨waiting.cnv.slots.set 0 limitSlot, .converting ⟨[], 20, 1, 4095⟩⟩ } := by
  refine ⟨by decide +kernel, ?_⟩
  show _ ∧ _ ∧ _ ∧ _
  decide +kernel

/-- TicketsAndTransferKept: a MOVE that has read its source word and is marked by ABORT. -/
theorem witness_TransferKept :
    TransferSound
      (withEngine (.run { running (cmd 0x21#16 0#16 2 1) false with reads := [5#16], aborting := true }) swept) := by
  refine ⟨fun c h => absurd h (by simp [withEngine, swept, State.reset, State.powerOn]), ?_⟩
  show _ ∧ _ ∧ _ ∧ _ ∧ _
  unfold CommandSound ElementSound; decide +kernel

/-- RingKeptClearOfCommands: a command runs in the work area while ACQ is not IDLE. -/
theorem witness_RingKeptClearOfCommands :
    let s := withEngine (.run (Running.start (cmd 2#16 0#16 1 1))) waiting;
    RingKeptClear s ∧ s.acqIdle = false ∧ s.ble.running ≠ none := by
  unfold RingKeptClear; decide +kernel

/-- Every sticky flag set. -/
def flagged : State :=
  swept.setSticky ⟨true, true, true, true, true, true, true, true, true, true, true⟩

/-- StickyFlagsStay: every flag set, and a command that is no write of EVENTS and no reset. -/
theorem witness_StickyFlagsStay :
    Instr.arm.wellFormed = true ∧ (∀ w, Instr.arm ≠ .eventsWrite w) ∧ Instr.arm ≠ .srst ∧
      (∀ h g e, Instr.arm ≠ .powerOnReset h g e) ∧ flagged.evu.sticky.sealed = true ∧ flagged.evu.sticky.init = true ∧
      ∃ t, exec .arm flagged = .next t :=
  ⟨by decide, by simp, by decide, by simp, by decide, by decide, _, rfl⟩

/-- SealedRecordsStay: a SEALED record and an ARM. -/
theorem witness_SealedRecordsStay :
    RecordsSound (withSealed swept) ∧ (withSealed swept).rtb.recs[(2 : Fin 8)].state = .sealed ∧
      (∀ m, Instr.arm ≠ .rls m) ∧ (∀ h g e, Instr.arm ≠ .powerOnReset h g e) ∧
      ∃ t, exec .arm (withSealed swept) = .next t := by
  refine ⟨?_, by decide +kernel, by simp, by simp, _, rfl⟩
  unfold RecordsSound; decide +kernel

/-- OnlyStoresChangeTheSheet: a command that stores nothing. -/
theorem witness_OnlyStoresChangeTheSheet :
    Instr.arm.wellFormed = true ∧ mayStore .arm = false ∧ ∃ t, exec .arm swept = .next t :=
  ⟨by decide, by decide, _, rfl⟩

/-- ConfigurationMovesOnlyBy: outside IDLE and in IDLE, a TRIG. -/
theorem witness_ConfigurationMovesOnlyBy :
    (∀ h g e, Instr.trig ≠ .powerOnReset h g e) ∧ (waiting.acq.state ≠ .idle ∧ ∃ t, exec .trig waiting = .next t) ∧
      (swept.acq.state = .idle ∧ ∃ t, exec .trig swept = .next t) :=
  ⟨by simp, ⟨by decide, _, rfl⟩, ⟨by decide, _, rfl⟩⟩

/-- SweepEndClearsTheSheet, InitAndBadCodeRefusals: in the sweep and after it, at the first and last bad codes. -/
theorem witness_sweep :
    State.reset.held = false ∧ swept.held = false ∧ State.reset.sweeping = true ∧ swept.sweeping = false ∧ BadCode 0#4 = true ∧ BadCode 10#4 = true ∧
      BadCode 15#4 = true := by decide +kernel

/-- PowerOnResetValues: the part while RESET is held. -/
theorem witness_PowerOnResetValues : heldReset.held = true ∧ heldReset.pending = [] := ⟨rfl, rfl⟩

/-- A FILL that the port is serving, an XWR with a word, and a MOVE in its write. -/
def storing : State := withEngine (.run (running (cmd 2#16 5#16 1 1) true)) swept
def storingXwr : State := withXf [9#16] none (withEngine (.run (running (cmd 6#16 0#16 1 1) true)) swept)

def storingMove (ctl : Word) (reads : List Word) : State :=
  withEngine (.run { running (cmd ctl 0#16 1 1) true with reads := reads }) swept

/-- SoftResetValues: sound states, in POST, with a destination write in service, and with none. -/
theorem witness_SoftResetValues :
    (let s := withRecord (.post 0) (open0 6 3 2 ⟨true, false, false, false⟩) swept;
      s.held = false ∧ RecordsSound s ∧ SheetSound s ∧ s.ble = .idle) ∧
      (storing.held = false ∧ RecordsSound storing ∧ SheetSound storing ∧ (running (cmd 2#16 5#16 1 1) true).cmd.kindNumber = 2 ∧
        (cmd 2#16 5#16 1 1).elementAddr (cmd 2#16 5#16 1 1).dest storing.acq.cfg storing.rtb 0 = some 16400) ∧
      (RecordsSound storingXwr ∧ SheetSound storingXwr ∧ (cmd 6#16 0#16 1 1).kindNumber = 6 ∧
        storingXwr.xf.words = 9#16 :: [] ∧
        (cmd 6#16 0#16 1 1).elementAddr (cmd 6#16 0#16 1 1).dest storingXwr.acq.cfg storingXwr.rtb 0 = some 16400) := by
  unfold RecordsSound SheetSound; and_intros <;> decide +kernel

/-- SoftResetValues: the write in service of a FILL, of an XWR, of a COPY and of an ADDS. -/
theorem witness_WriteInService :
    WriteInService storing (running (cmd 2#16 5#16 1 1) true) 5#16 ∧
      WriteInService storingXwr (running (cmd 6#16 0#16 1 1) true) 9#16 ∧
      WriteInService (storingMove 0x11#16 [8#16]) { running (cmd 0x11#16 0#16 1 1) true with reads := [8#16] } 8#16 ∧
      WriteInService (storingMove 0x21#16 [8#16, 1#16])
        { running (cmd 0x21#16 0#16 1 1) true with reads := [8#16, 1#16] } 9#16 := by
  refine ⟨⟨rfl, rfl, .inl (by decide +kernel)⟩, ⟨rfl, rfl, .inr (.inl ⟨by decide +kernel, [], rfl⟩)⟩,
    ⟨rfl, rfl, .inr (.inr (.inl ⟨by decide +kernel, by decide +kernel, [], rfl⟩))⟩,
    ⟨rfl, rfl, .inr (.inr (.inr ⟨by decide +kernel, .adds, 8#16, 1#16, [], by decide +kernel, by decide, rfl,
      by decide +kernel⟩))⟩⟩

/-- R16, R143: the MOVE write in service completes; a MOVE in its source read leaves its destination. -/
theorem test_srst_finishes_move :
    (after .srst (storingMove 0x21#16 [8#16, 1#16])).map (fun t => t.wordAt 16400) = some 9#16 ∧
      (after .srst (storingMove 0x21#16 [])).map (fun t => t.wordAt 16400) = some 0x8000#16 := by decide +kernel

/-- ArmDecided: each refusal, and the acceptance. -/
theorem witness_ArmDecided :
    FirstFailure (armChecks State.reset) .init ∧ FirstFailure (armChecks waiting) .busy ∧
      FirstFailure (armChecks (withTable (fun t => { t with listLength := 0 }) swept)) .badList ∧
      FirstFailure (armChecks (withTable (fun t => { t with preCount := 1024 }) swept)) .badGeometry ∧
      FirstFailure
        (armChecks { swept with cnv := ⟨swept.cnv.slots.set 15 { limitSlot with low := 3001#12 }, .free⟩ })
        .badLimits ∧
      FirstFailure (armChecks (runs ⟨2#16, 0#16, 0#16, 0x3FF#16, 0#16, 1#16, 1#16, 0#16⟩)) .engineInRing ∧
      FirstFailure (armChecks { swept with rtb := fullTable }) .noRecord ∧
      (AllHold (armChecks (withTable (fun t => { t with preCount := 1023 }) swept)) ∧
        swept.rtb.recs[(0 : Fin 8)].state = .free ∧ ∀ m : Fin 8, m < 0 → swept.rtb.recs[m].state ≠ .free) := by
  simp only [FirstFailure, AllHold, armChecks, running_clear]; and_intros <;> decide +kernel

/-- StopDecided. -/
theorem witness_StopDecided :
    FirstFailure (stopChecks State.reset) .init ∧ FirstFailure (stopChecks swept) .notArmed ∧
      AllHold (stopChecks waiting) ∧ RecordsSound waiting := by
  simp only [FirstFailure, AllHold, stopChecks]; unfold RecordsSound; decide +kernel

/-- TrigDecided. -/
theorem witness_TrigDecided :
    FirstFailure (trigChecks State.reset) .init ∧ FirstFailure (trigChecks swept) .notArmed ∧
      FirstFailure (trigChecks (withTable (fun t => { t with mask := Sources.none }) waiting)) .masked ∧
      AllHold (trigChecks waiting) := by
  simp only [FirstFailure, AllHold, trigChecks]; decide +kernel

/-- SubmitDecided: each refusal, and the acceptance at the bounds of R104's example. -/
theorem witness_SubmitDecided :
    FirstFailure (submitChecks State.reset) .init ∧ FirstFailure (submitChecks swept) .badKind ∧
      FirstFailure (submitChecks (withStaging (relative 5 5 3) (withSealed swept))) .badRect ∧
      FirstFailure (submitChecks (withStaging (relative 5 4 3) swept)) .badRecord ∧
      FirstFailure (submitChecks (withStaging (cmd 3#16 (0x2000#16 + 4096#16) 1 1) swept)) .badParam ∧
      FirstFailure (submitChecks { withStaging (cmd 2#16 0#16 1 1) swept with cq := ⟨cmd 2#16 0#16 1 1, [], 0⟩ }) .full ∧
      AllHold (submitChecks (withStaging (relative 5 4 3) (withSealed swept))) := by
  simp only [FirstFailure, AllHold, submitChecks, Staged.named, Staged.inBounds]
  refine ⟨?_, ?_, ?_, ?_, ?_, ?_, ?_⟩
  iterate 6 (repeat (first | exact Or.inl ⟨by decide +kernel, trivial⟩ | refine Or.inr ⟨by decide +kernel, ?_⟩))
  and_intros <;> decide +kernel

/-- AbortDecided: refused, answered at once in XWAIT and in RUN, and marked. -/
theorem witness_AbortDecided :
    FirstFailure (abortChecks State.reset) .init ∧ FirstFailure (abortChecks swept) .nothing ∧
      (let s := withEngine (.xwait (running (cmd 6#16 0#16 1 1) false)) swept;
        s.sweeping = false ∧ .pending ∈ s.rq) ∧
      ((runs (cmd 2#16 0#16 1 1)).sweeping = false ∧ .pending ∈ (runs (cmd 2#16 0#16 1 1)).rq) ∧
      (storing.sweeping = false ∧ (running (cmd 2#16 5#16 1 1) true).busy = true) := by
  simp only [FirstFailure, abortChecks]; decide +kernel

/-- FlushDecided. -/
theorem witness_FlushDecided :
    FirstFailure (flushChecks State.reset) .init ∧ FirstFailure (flushChecks swept) .empty ∧
      AllHold (flushChecks (queued (cmd 2#16 0#16 1 1))) := by
  simp only [FirstFailure, AllHold, flushChecks]; decide +kernel

/-- PopDecided: no entry, a pending head, a posted head. -/
theorem witness_PopDecided :
    FirstFailure (popChecks State.reset) .init ∧ FirstFailure (popChecks swept) .empty ∧
      FirstFailure (popChecks storing) .empty ∧
      AllHold (popChecks { swept with rq := [.posted ⟨1#8, 2#4, .done, 1, .none⟩] }) := by
  simp only [FirstFailure, AllHold, popChecks]
  refine ⟨Or.inl ⟨by decide +kernel, trivial⟩, Or.inr ⟨by decide +kernel, Or.inl ⟨?_, trivial⟩⟩,
    Or.inr ⟨by decide +kernel, Or.inl ⟨?_, trivial⟩⟩,
    by decide +kernel, ⟨_, _, rfl⟩, trivial⟩
  · rintro ⟨e, rest, h⟩; cases h
  · rintro ⟨e, rest, h⟩; cases h

/-- ReleaseDecided: each refusal, and the acceptance outside STARVED and in it. -/
theorem witness_ReleaseDecided :
    FirstFailure (rlsChecks 0#12 State.reset) .init ∧ FirstFailure (rlsChecks 8#12 swept) .badRecord ∧
      FirstFailure (rlsChecks 7#12 swept) .notSealed ∧ FirstFailure (rlsChecks 0#12 waiting) .isOpen ∧
      FirstFailure
        (rlsChecks 2#12 { withSealed swept with rtb := ⟨swept.rtb.recs.set 2 { sealed8 with pins := 1 }, [2]⟩ })
        .pinned ∧
      (AllHold (rlsChecks 2#12 (withSealed swept)) ∧ (2 : Fin 8).val = (2#12).toNat ∧
        (withSealed swept).acq.state ≠ .starved) ∧
      (let s := { swept with rtb := fullTable, acq := { swept.acq with state := .starved } };
        AllHold (rlsChecks 7#12 s) ∧ (7 : Fin 8).val = (7#12).toNat ∧ s.acq.state = .starved) := by
  simp only [FirstFailure, AllHold, rlsChecks]; and_intros <;> decide +kernel

/-- OutcomeWordHoldsLastRequest: a request and a command that is none. -/
theorem witness_OutcomeWord :
    (isRequest .arm = true ∧ ∃ t, exec .arm swept = .next t) ∧
      (isRequest .tdataRead = false ∧ ∃ t, exec .tdataRead swept = .next t) :=
  ⟨⟨by decide, _, rfl⟩, ⟨by decide, _, rfl⟩⟩

/-- ScanEvents: an expiry in CONTINUOUS mode and an edge in EXTERNAL mode, with and without a scan in progress. -/
theorem witness_ScanEvents :
    waiting.acq.state.openRec = some 0 ∧ waiting.acq.cfg.timerMode = .continuous ∧ waiting.cnv.scan = .free ∧
      (converting ⟨[], 3, 0, 0⟩ waiting).cnv.scan ≠ .free ∧
      (let s := withTable (fun t => { t with timerMode := .gated, gateLow := true }) waiting;
        s.acq.cfg.timerMode = .gated ∧ s.gateActive = true) ∧
      (let s := withTable (fun t => { t with timerMode := .external }) waiting;
        s.acq.cfg.timerMode = .external ∧ s.stm.scan = false ∧ s.acq.state.openRec = some 0) := by decide +kernel

/-- LineSamples: no edge event with the timer stopped; an edge that sets the latch, and one that does not. -/
theorem witness_LineSamples :
    swept.timerRunning = false ∧
      (let s := withTable (fun t => { t with mask := ⟨false, true, false, false⟩ }) waiting;
        s.acq.cfg.lineFall = false ∧ s.tru.sample = false ∧ s.acq.state = .waittrig 0 ∧ s.acq.cfg.mask.line = true) ∧
      swept.acq.cfg.mask.line = false := by decide +kernel

/-- SlotEndConverts: the first of two slots ends; SlotEndPresents: the last one ends, with the ring free and blocked. -/
theorem witness_SlotEnd :
    (let s := converting ⟨[], 14, 0, 0⟩ (withTable (fun t => { t with listLength := 2 }) waiting);
      s.held = false ∧ (0 : Fin 16).val = ([] : List Word).length ∧ 0 + 1 < s.acq.cfg.listLength ∧
        0 ≤ s.cnv.slots[(0 : Fin 16)].average.num) ∧
      (let s := converting ⟨[], 14, 0, 0⟩ waiting;
        s.held = false ∧ s.acq.cfg.listLength ≤ 0 + 1 ∧ s.acq.state.openRec = some 0 ∧ RingSound s ∧ ShapesSound s ∧ ¬WriterBlocked s) ∧
      (let s := converting ⟨[], 14, 0, 0⟩ (withSealed waiting);
        s.held = false ∧ s.acq.cfg.listLength ≤ 0 + 1 ∧ s.acq.state.openRec = some 0 ∧ RingSound s ∧ ShapesSound s ∧ WriterBlocked s) := by
  unfold RingSound ShapesSound WriterBlocked; and_intros <;> decide +kernel

/-- CommitWritesRow, CommitGrowsRecord in WAITTRIG, in PRE and in POST. -/
theorem witness_CommitGrowsRecord :
    (let s := withRow [100#16] waiting;
      s.cnv.scan = .presented [100#16] ∧ s.acq.state.openRec = some 0 ∧ s.held = false ∧ s.sweeping = false ∧ s.ble = .idle ∧ RingSound s ∧
        SheetSound s ∧ triggerTaken s [100#16] = false) ∧
      (let s := withRow [100#16] (withRecord (.pre 0) (open0 0 0 0 Sources.none) (withTable (fun t => { t with preCount := 3 }) swept));
        s.acq.state = .pre 0 ∧ s.held = false ∧ s.sweeping = false ∧ s.ble = .idle ∧ RingSound s ∧ triggerTaken s [100#16] = false) ∧
      (let s := withRow [100#16]
          (withRecord (.post 0) (open0 1 0 0 ⟨true, false, false, false⟩) (withTable (fun t => { t with postCount := 2 }) swept));
        s.acq.state = .post 0 ∧ s.held = false ∧ s.sweeping = false ∧ s.ble = .idle ∧ RingSound s ∧ triggerTaken s [100#16] = false ∧
          s.rtb.recs[(0 : Fin 8)].post + 1 ≠ s.acq.cfg.postCount) := by
  unfold RingSound SheetSound; decide +kernel

/-- TriggerOpensPost: the HOST latch is set in WAITTRIG with a post count above 0, and in PRE with EARLY set. -/
theorem witness_TriggerOpensPost :
    (let s := { withRow [100#16] (withTable (fun t => { t with postCount := 4 }) waiting) with
        tru := ⟨true, false, false, 0, false⟩ };
      s.acq.state = .waittrig 0 ∧ s.held = false ∧ s.sweeping = false ∧ s.ble = .idle ∧ RingSound s ∧ triggerTaken s [100#16] = true ∧
        s.acq.cfg.postCount ≠ 0) ∧
      (let s := { withRow [100#16]
          (withRecord (.pre 0) (open0 0 0 0 Sources.none)
            (withTable (fun t => { t with preCount := 3, postCount := 4, early := true }) swept)) with
          tru := ⟨true, false, false, 0, false⟩ };
        s.acq.state = .pre 0 ∧ s.held = false ∧ s.sweeping = false ∧ s.ble = .idle ∧ RingSound s ∧ triggerTaken s [100#16] = true ∧
          s.acq.cfg.postCount ≠ 0) := by
  unfold RingSound; decide +kernel

/-- SealContinues: the last post row; a trigger with post count 0, with a FREE descriptor and with none. -/
theorem witness_SealContinues :
    (let s := withRow [100#16]
        (withRecord (.post 0) (open0 1 0 0 ⟨true, false, false, false⟩) (withTable (fun t => { t with postCount := 1 }) swept));
      RecordsSound s ∧ s.held = false ∧ s.sweeping = false ∧ s.ble = .idle ∧ RingSound s ∧ s.acq.state = .post 0 ∧
        s.rtb.recs[(0 : Fin 8)].post + 1 = s.acq.cfg.postCount ∧ s.acq.cfg.rearm = false) ∧
      (let s := { withRow [100#16] (withTable (fun t => { t with rearm := true }) waiting) with
          tru := ⟨true, false, false, 0, false⟩ };
        RecordsSound s ∧ RingSound s ∧ s.acq.state.latching = true ∧ triggerTaken s [100#16] = true ∧
          s.acq.cfg.postCount = 0 ∧ s.acq.cfg.rearm = true ∧ s.rtb.recs[(1 : Fin 8)].state = .free ∧
          ∀ m : Fin 8, m < 1 → s.rtb.recs[m].state ≠ .free) ∧
      (let s := { withRow [100#16] (withTable (fun t => { t with rearm := true }) waiting) with
          tru := ⟨true, false, false, 0, false⟩
          rtb := ⟨(Vector.replicate 8 { sealed8 with length := 1 }).set 0 (open0 0 0 0 Sources.none), [1, 2, 3, 4, 5, 6, 7]⟩ };
        RecordsSound s ∧ RingSound s ∧ triggerTaken s [100#16] = true ∧ s.acq.cfg.rearm = true ∧
          ∀ m : Fin 8, s.rtb.recs[m].state ≠ .free) := by
  unfold RecordsSound RingSound; and_intros <;> decide +kernel

/-- TakeDecided: a FILL and an XWR that start, and a command that is answered RING_BUSY at the last ring row. -/
theorem witness_TakeDecided :
    ((queued (cmd 2#16 0#16 1 1)).ble = .idle ∧ .pending ∉ (queued (cmd 2#16 0#16 1 1)).rq ∧
        (queued (cmd 2#16 0#16 1 1)).acq.state = .idle ∧ (cmd 2#16 0#16 1 1).kindNumber ≠ 6 ∧
        (cmd 6#16 0#16 1 1).kindNumber = 6) ∧
      let c : Staged := ⟨2#16, 0#16, 0#16, 0x3FF#16, 0#16, 1#16, 1#16, 0#16⟩;
      let s := { waiting with cq := ⟨Staged.zero, [c], 7⟩ };
      s.ble = .idle ∧ s.acq.state ≠ .idle ∧ c.overlapsRing s.acq.cfg = true ∧ .pending ∉ s.rq := by decide +kernel

/-- The port serves the engine after the sweep with no scan. -/
theorem portFree_runs (c : Staged) : PortFree (runs c) := ⟨by rfl, by rfl, fun row h => by cases h⟩

/-- A commit is served with the engine IDLE; the commit witnesses above meet these three. -/
theorem commitServed_of {s : State} (h : s.held = false ∧ s.sweeping = false ∧ s.ble = .idle) : CommitServed s :=
  ⟨h.1, h.2.1, fun r hr => by rw [h.2.2] at hr; cases hr⟩

/-- A command with an access in progress as a row arrives at the port, and one that waits. -/
def withBoth (r : Running) : State := withRow [100#16] { waiting with ble := .run r, rq := [.pending] }

/-- CommitServedFirst: a row at the port with an access in progress, and with none. -/
theorem witness_CommitServedFirst :
    (let s := withBoth (running (cmd 2#16 0#16 1 1) true);
      s.held = false ∧ s.cnv.scan = .presented [100#16] ∧ s.ble = .run (running (cmd 2#16 0#16 1 1) true) ∧
        s.pending = [] ∧ s.sweeping = false) ∧
      (let s := withBoth (running (cmd 2#16 0#16 1 1) false);
        s.held = false ∧ s.cnv.scan = .presented [100#16] ∧ s.ble = .run (running (cmd 2#16 0#16 1 1) false) ∧
          isElement .fill = true ∧ ∃ t, exec .fill s = .next t) :=
  ⟨by decide +kernel, by rfl, rfl, rfl, rfl, _, rfl⟩

/-- MoveElement: one element, for every OP, with and without SKIP_VOID over a void source. -/
theorem witness_MoveElement :
    (∀ op ∈ [(MoveOp.copy, 0x11#16), (.adds, 0x21#16), (.subs, 0x31#16), (.min, 0x41#16), (.max, 0x51#16), (.mean, 0x461#16)],
      let c := cmd op.2 0#16 2 1;
      c.kind = some .move ∧ c.op = some op.1 ∧ SheetSound (runs c) ∧ .pending ∈ (runs c).rq ∧
        c.elementAddr c.source (runs c).acq.cfg (runs c).rtb 0 = some 16384 ∧
        c.elementAddr c.dest (runs c).acq.cfg (runs c).rtb 0 = some 16400) ∧
      PortFree (runs (cmd 0x11#16 0#16 2 1)) ∧ isVoid ((runs (cmd 0x461#16 0#16 2 1)).wordAt 16384) = true ∧
      (cmd 0x461#16 0#16 2 1).skipVoid = true ∧ (cmd 0x11#16 0#16 2 1).skipVoid = false := by
  refine ⟨?_, portFree_runs _, ?_, ?_, ?_⟩
  · unfold SheetSound; decide +kernel
  all_goals decide +kernel

/-- MoveElement with a row at the port: the access in progress is the source read, the destination read, or the write. -/
theorem witness_MoveElement_waits :
    ∀ reads ∈ [[], [3#16], [3#16, 4#16]],
      let c := cmd 0x21#16 0#16 2 1;
      let s := withBoth { running c true with reads := reads };
      s.held = false ∧ s.sweeping = false ∧ s.cnv.scan = .presented [100#16] ∧ c.kind = some .move ∧
        c.op = some .adds ∧ SheetSound s ∧ .pending ∈ s.rq ∧
        c.elementAddr c.source s.acq.cfg s.rtb 0 = some 16384 ∧ c.elementAddr c.dest s.acq.cfg s.rtb 0 = some 16400 := by
  unfold SheetSound; decide +kernel

/-- FillFillsItsRectangle: a FILL of 16 columns and 2 rows at its start, in the part that is otherwise still. -/
theorem witness_FillFillsItsRectangle :
    let c := cmd 2#16 5#16 16 2;
    (runs c).ble = .run (Running.start c) ∧ c.kind = some .fill ∧ c.rectOk (runs c).rtb = true ∧
      c.recordsOk (runs c).rtb = true ∧ RingSound (runs c) ∧ SheetSound (runs c) ∧ (runs c).held = false ∧
      (runs c).sweeping = false ∧ (runs c).cnv.scan = .free ∧ .pending ∈ (runs c).rq ∧
      c.elementAddr c.dest (runs c).acq.cfg (runs c).rtb 0 = some 16400 := by
  unfold RingSound SheetSound; decide +kernel

/-- SearchElement, SearchFindsTheFirst: two rows, the second of which matches; every other word is void. -/
def searchedSheet (c : Staged) : State := { runs c with sst := ⟨[(16384, 1#16), (16400, 7#16)], 32768⟩ }

theorem witness_Search :
    let c := cmd 3#16 (0x2000#16 + 5#16) 1 2;
    let s := searchedSheet c;
    s.ble = .run (Running.start c) ∧ c.kind = some .srch ∧ c.cond = some .above ∧ c.w = 1 ∧ c.rectOk s.rtb = true ∧
      c.recordsOk s.rtb = true ∧ RingSound s ∧ s.held = false ∧ s.sweeping = false ∧ s.cnv.scan = .free ∧ .pending ∈ s.rq ∧ 1 < c.h ∧
      (∀ e, e < 2 → c.elementAddr c.source s.acq.cfg s.rtb e = some (16384 + 16 * e)) ∧
      Cond.above.holds c.threshold none (s.wordAt 16384) = false ∧
      Cond.above.holds c.threshold (some 1) (s.wordAt 16400) = true := by
  unfold RingSound; decide +kernel

/-- ReduceElement, ReduceGivesStatistics: a rectangle with a valid word and void words. -/
theorem witness_Reduce :
    let c := cmd 4#16 0#16 2 2;
    let s := searchedSheet c;
    s.ble = .run (Running.start c) ∧ c.kind = some .rduc ∧ c.rectOk s.rtb = true ∧ c.recordsOk s.rtb = true ∧
      RingSound s ∧ s.held = false ∧ s.sweeping = false ∧ s.cnv.scan = .free ∧ .pending ∈ s.rq ∧
      (∀ e, e < 4 → c.elementAddr c.source s.acq.cfg s.rtb e = some (16384 + 16 * (e / 2) + e % 2)) ∧
      isVoid (s.wordAt 16384) = false ∧ isVoid (s.wordAt 16385) = true := by
  unfold RingSound; decide +kernel

/-- TransferElement: an XRD with room in XF, and an XWR with a word. -/
theorem witness_TransferElement :
    (let c := cmd 5#16 0#16 1 2;
      c.kind = some .xrd ∧ (runs c).xf.words.length < 4 ∧ 0 < c.w * c.h ∧ .pending ∈ (runs c).rq ∧
        c.elementAddr c.source (runs c).acq.cfg (runs c).rtb 0 = some 16384) ∧
      ((cmd 6#16 0#16 1 1).kind = some .xwr ∧ SheetSound storingXwr ∧ storingXwr.xf.words = 9#16 :: [] ∧
        .pending ∈ storingXwr.rq) ∧ PortFree (runs (cmd 5#16 0#16 1 2)) := by
  refine ⟨by decide +kernel, ?_, portFree_runs _⟩
  unfold SheetSound; decide +kernel

/-- XdataRead, XdataWrite, TransferTimeout: XRD with a word and without, XWR with room, full, and waiting, no transfer. -/
theorem witness_Transfers :
    ((cmd 5#16 0#16 1 2).kind = some .xrd ∧ (cmd 6#16 0#16 1 2).kind = some .xwr ∧ (cmd 2#16 0#16 1 2).kind ≠ some .xrd) ∧
      (let s := withXf [9#16] none (runs (cmd 5#16 0#16 1 2));
        s.ble = .run (Running.start (cmd 5#16 0#16 1 2)) ∧ s.xf.words = 9#16 :: [] ∧ .pending ∈ s.rq) ∧
      (runs (cmd 5#16 0#16 1 2)).xf.words = [] ∧
      (let c := cmd 6#16 0#16 1 2;
        (0 : Nat) < Nat.min 4 (c.w * c.h - 0) ∧ Nat.min 4 (c.w * c.h - 0) ≤ [9#16, 9#16].length) ∧
      (withXf [] (some 1) (withEngine (.xwait (running (cmd 6#16 0#16 1 2) false)) swept)).xf.timeout = some 1 ∧
      swept.ble = .idle ∧ swept.xf.timeout = none := by decide +kernel

/-- TablePointer, TdataRead, TdataWriteDecided: indexes at the ends of the tables; a write that its table accepts and
one that it does not, at the bounds of R7. -/
theorem witness_Tables :
    swept.hpi.index < swept.hpi.table.size ∧
      (let s := { swept with hpi := ⟨.count, 7, true, 0#4, .none⟩ };
        s.hpi.index < s.hpi.table.size ∧ ¬TdataAccepts s 0#16) ∧
      (let s := { swept with hpi := ⟨.acq, 1, false, 0#4, .none⟩ };
        s.hpi.index < s.hpi.table.size ∧ RingSound s ∧ RangesSound s ∧ TdataAccepts s 16#16 ∧ ¬TdataAccepts s 15#16 ∧
          TdataAccepts s 2048#16 ∧ ¬TdataAccepts s 2049#16) ∧
      (let s := { swept with hpi := ⟨.acq, 11, false, 0#4, .none⟩ };
        TdataAccepts s 0#16 ∧ s.timerRunning = false) ∧
      (let s := { swept with hpi := ⟨.record, 8 * 7 + 7, false, 0#4, .none⟩ };
        s.held = false ∧ s.hpi.index < s.hpi.table.size ∧ s.rtb.recs[(7 : Fin 8)].columns ≤ 16) ∧
      (let s := { swept with hpi := ⟨.scan, 63, false, 0#4, .none⟩ };
        TdataAccepts s 4095#16 ∧ ¬TdataAccepts s 4096#16) := by
  simp only [TdataAccepts, RingSound, RangesSound]
  and_intros <;> decide +kernel

/-- WindowWrite: the ends of each range of words. -/
theorem witness_WindowWrite :
    (0x08#5 ≤ 0x08#5 ∧ 0x0F#5 ≤ 0x0F#5) ∧ (0x10#5 ≤ 0x19#5) ∧ 0x1A#5 ≤ 0x1F#5 ∧ field 0xFFF9#16 0 4 = 9 ∧
      field 0x0010#16 0 4 = 0 ∧ field 0x001A#16 0 4 = 10 := by decide

/-- StatusAndResultWindow: counts in range, an empty result queue, and a posted head of each shape. -/
theorem witness_StatusAndResultWindow :
    (swept.cq.queue.length ≤ 7 ∧ postedCount swept.rq ≤ 8 ∧ swept.rq = []) ∧
      (let s := { swept with rq := [.posted ⟨1#8, 3#4, .found, 1, .found 2047 4095 5#16⟩] };
        s.rq = .posted ⟨1#8, 3#4, .found, 1, .found 2047 4095 5#16⟩ :: [] ∧ 2047 < 2048 ∧ 4095 < 4096) ∧
      (∀ n ∈ [0, 1],
        let st : Stats := ⟨n, 4095, 4095, 4095, 2047, 15, 2047, 15⟩;
        let s := { swept with rq := [.posted ⟨1#8, 4#4, .done, 1, .reduced st⟩] };
        s.held = false ∧ st.sum ≤ 134184960 ∧ st.vcount ≤ 32768 ∧ st.max ≤ 4095 ∧ st.maxRow ≤ 2047 ∧ st.maxCol ≤ 15) := by
  decide +kernel

/-- ElementOrder and PositionsMapToTheSheet: a rectangle, and a record whose rows wrap the ring. -/
theorem witness_Positions :
    (1 ≤ (cmd 2#16 0#16 16 2048).w ∧ 1 ≤ (cmd 2#16 0#16 16 2048).h) ∧
      (let s := { swept with rtb := ⟨swept.rtb.recs.set 2 { sealed8 with start := 1020 }, [2]⟩ };
        RingSound s ∧ ShapesSound s ∧ s.rtb.recs[(2 : Fin 8)].state = .sealed ∧ 7 < s.rtb.recs[(2 : Fin 8)].length ∧
          (Coord.mk true 0 15 2).addr s.acq.cfg s.rtb 7 0 = some (16 * 3 + 15)) := by
  unfold RingSound ShapesSound; and_intros <;> first | decide +kernel | exact True.intro

/-- RingOverlap, with R10's example: row 990 with HEIGHT 10 does not overlap a ring at 1000, HEIGHT 11 does. -/
theorem witness_RingOverlap :
    let t : AcqTable := { AcqTable.reset with ringBase := 1000, ringLength := 16 };
    let c := fun h : Word => (⟨2#16, 0#16, 0#16, 990#16, 0#16, 1#16, h, 0#16⟩ : Staged);
    (c 10#16).overlapsRing t = false ∧ (c 11#16).overlapsRing t = true ∧ (c 11#16).named ∧ 16 ≤ t.ringLength := by
  unfold Staged.named; decide +kernel

end Sys2Proof.Tests
end

section
/-! SUPPORT. Which commands change the host port, the table pointer of R166 and the outcome word of R171, and how: one
frame lemma for every command that is no request and no access of TPTR or TDATA, one rule for every request. -/

namespace Sys2Proof.Machine.HostPortMoves

variable {s t : State}

/-! ## A meaning that keeps the host port -/

/-- Where the meaning answers a next state, the host port is as it was. -/
def KeepsPort (s : State) (out : Out) : Prop := ∀ t, out = .next t → t.hpi = s.hpi

theorem KeepsPort.next {u : State} (h : u.hpi = s.hpi) : KeepsPort s (.next u) := by
  rintro t ⟨⟩
  exact h

theorem KeepsPort.fault (r : Fault) : KeepsPort s (.fault r) := by
  rintro t ⟨⟩

theorem KeepsPort.unlessHeld {out : Out} (h : KeepsPort s out) : KeepsPort s (s.unlessHeld out) := by
  unfold State.unlessHeld
  split
  · exact .next rfl
  · exact h

/-! ## The acquisition path -/

theorem blockedDrop_hpi (s : State) : (blockedDrop s).hpi = s.hpi := by
  simp [blockedDrop]

theorem present_hpi (row : List Word) (s : State) : (present row s).hpi = s.hpi := by
  unfold present
  split
  · exact blockedDrop_hpi s
  · rfl

theorem commitRecord_hpi (s : State) (row : List Word) : (commitRecord s row).hpi = s.hpi := by
  cases ho : s.acq.state.openRec with
  | some n =>
    obtain ⟨-, -, -, -, -, -, -, -, hkept⟩ := commitRecord_part row ho
    exact hkept .hpi (by simp)
  | none =>
    unfold commitRecord
    split <;> simp_all [AcqState.openRec]

theorem execTimerExpiry_keepsPort (s : State) : KeepsPort s (execTimerExpiry s) := by
  refine .unlessHeld (.next ?_)
  split <;> simp [expiry]

theorem execScanEdge_keepsPort (level : Bool) (s : State) : KeepsPort s (execScanEdge level s) := by
  refine .unlessHeld (.next ?_)
  split <;> simp

theorem execSlotEnd_keepsPort (codes : Vector Code 8) (s : State) : KeepsPort s (execSlotEnd codes s) := by
  refine .unlessHeld ?_
  split
  · split
    · refine .next ?_
      split
      · rfl
      · exact present_hpi ..
    · exact .next rfl
  · exact .next rfl

theorem execRowCommit_keepsPort (s : State) : KeepsPort s (execRowCommit s) := by
  refine .unlessHeld ?_
  split
  · split
    · split
      · exact .next (commitRecord_hpi ..)
      · exact .fault _
    · exact .next rfl
  · exact .next rfl

/-! ## The block engine -/

theorem endElement_hpi (s : State) (r : Running) (answer : Option (Status × Detail)) :
    (s.endElement r answer).hpi = s.hpi := by
  unfold State.endElement
  split
  · rfl
  · split <;> rfl

theorem KeepsPort.onElement {sel : Staged → Bool} {f : Running → State → Out} (h : ∀ r, KeepsPort s (f r s)) :
    KeepsPort s (s.onElement sel f) := by
  rcases s.onElement_cases sel f with he | ⟨r, -, -, -, he⟩
  · rw [he]; exact .next rfl
  · rw [he]; exact h r

theorem KeepsPort.between {r : Running} {next : Running → State → Out} (h : ∀ r', KeepsPort s (next r' s)) :
    KeepsPort s (s.between r next) := by
  unfold State.between
  split
  · exact .next rfl
  · exact h r

theorem execTake_keepsPort (s : State) : KeepsPort s (execTake s) := by
  refine .unlessHeld ?_
  split
  · refine .next ?_
    unfold takeHead startCommand
    dsimp only
    split
    · rfl
    · split <;> rfl
  · exact .next rfl

theorem moveWrite_keepsPort (op : MoveOp) (a b : Word) (r : Running) (s : State) :
    KeepsPort s (moveWrite op a b r s) := by
  unfold moveWrite
  split
  · exact .fault _
  · exact .next (endElement_hpi ..)

theorem moveRest_keepsPort (op : MoveOp) (a : Word) (r : Running) (s : State) : KeepsPort s (moveRest op a r s) := by
  unfold moveRest
  split
  · exact moveWrite_keepsPort op a a r s
  · split
    · exact .fault _
    · exact .between fun r' => moveWrite_keepsPort op a _ r' s

theorem moveElement_keepsPort (op : MoveOp) (r : Running) (s : State) : KeepsPort s (moveElement op r s) := by
  unfold moveElement
  split
  · split
    · exact .fault _
    · split
      · exact .next (endElement_hpi ..)
      · exact .between fun r' => moveRest_keepsPort op _ r' s
  · exact moveRest_keepsPort op _ r s
  · exact moveWrite_keepsPort op _ _ r s

theorem fillElement_keepsPort (r : Running) (s : State) : KeepsPort s (fillElement r s) := by
  unfold fillElement
  split
  · exact .fault _
  · exact .next (endElement_hpi ..)

theorem srchElement_keepsPort (cond : Cond) (r : Running) (s : State) : KeepsPort s (srchElement cond r s) := by
  unfold srchElement
  split
  · exact .fault _
  · exact .next (endElement_hpi ..)

theorem rducElement_keepsPort (r : Running) (s : State) : KeepsPort s (rducElement r s) := by
  unfold rducElement
  split
  · exact .fault _
  · exact .next (endElement_hpi ..)

theorem afterRead_hpi (s : State) (r : Running) (words : List Word) : (afterRead s r words).hpi = s.hpi := by
  unfold afterRead
  split
  · rfl
  · split <;> rfl

theorem xrdElement_keepsPort (r : Running) (s : State) : KeepsPort s (xrdElement r s) := by
  unfold xrdElement
  split
  · split
    · exact .fault _
    · exact .next (afterRead_hpi ..)
  · exact .next rfl

theorem afterWrite_hpi (s : State) (r : Running) (words : List Word) : (afterWrite s r words).hpi = s.hpi := by
  unfold afterWrite
  split
  · rfl
  · split
    · rfl
    · split <;> rfl

theorem xwrElement_keepsPort (r : Running) (s : State) : KeepsPort s (xwrElement r s) := by
  unfold xwrElement
  split
  · exact .next rfl
  · split
    · exact .fault _
    · exact .next (afterWrite_hpi ..)

theorem execTransferTimeout_keepsPort (s : State) : KeepsPort s (execTransferTimeout s) := by
  refine .unlessHeld ?_
  split <;> exact .next rfl

/-! ## Bus accesses that are no request and no access of the table port -/

theorem voidRead_hpi (s : State) : (voidRead s).hpi = s.hpi := by
  simp [voidRead]

theorem underrunRead_hpi (s : State) : (underrunRead s).hpi = s.hpi := by
  simp [underrunRead]

theorem takeWord_hpi (s : State) (r : Running) (w : Word) (rest : List Word) : (takeWord s r w rest).hpi = s.hpi := by
  unfold takeWord afterTake
  split
  · rfl
  · split <;> rfl

theorem readXdata_hpi (s : State) : (readXdata s).hpi = s.hpi := by
  unfold readXdata
  split
  · split
    · split
      · exact takeWord_hpi ..
      · exact underrunRead_hpi s
    · exact voidRead_hpi s
  · exact voidRead_hpi s

theorem execXdataRead_keepsPort (s : State) : KeepsPort s (execXdataRead s) := by
  refine .next ?_
  split
  · rfl
  · exact readXdata_hpi s

theorem dropWrite_hpi (s : State) : (dropWrite s).hpi = s.hpi := by
  simp [dropWrite]

theorem writeXdata_hpi (w : Word) (s : State) : (writeXdata w s).hpi = s.hpi := by
  unfold writeXdata
  split
  · split
    · rfl
    · exact dropWrite_hpi s
  · exact dropWrite_hpi s

/-- A window word without rows of its own is no word of the host port (R164). -/
theorem windowWrite_hpi {offset : BitVec 5} (h : PlainOffset offset = true) (w : Word) (s : State) :
    (windowWrite offset w s).hpi = s.hpi := by
  have hne : offset ≠ 0x00#5 ∧ offset ≠ 0x02#5 ∧ offset ≠ 0x03#5 ∧ offset ≠ 0x04#5 ∧ offset ≠ 0x05#5 ∧
      offset ≠ 0x06#5 := by
    revert offset; decide
  obtain ⟨h0, h2, h3, h4, h5, h6⟩ := hne
  simp only [windowWrite, h0, h2, h3, h4, h5, h6, if_false]
  repeat' split
  all_goals rfl

/-! ## The frame -/

/-- A command that is no request, no power-on reset and no access of the table port leaves the host port. -/
theorem exec_hpi {c : Instr} (hw : c.wellFormed = true) (hr : isRequest c = false)
    (hp : ∀ h g e, c ≠ .powerOnReset h g e) (h1 : ∀ v, c ≠ .tptrWrite v) (h2 : c ≠ .tdataRead)
    (h3 : ∀ v, c ≠ .tdataWrite v) : KeepsPort s (exec c s) := by
  cases c with
  | powerOnReset h g e => exact absurd rfl (hp h g e)
  | tptrWrite v => exact absurd rfl (h1 v)
  | tdataRead => exact absurd rfl h2
  | tdataWrite v => exact absurd rfl (h3 v)
  | srst | arm | stop | trig | submit | abort | flush | pop | rls | badCodeRequest => cases hr
  | initSweepEnd => exact .unlessHeld (.next (by split <;> rfl))
  | timerExpiry => exact execTimerExpiry_keepsPort s
  | scanEdge level => exact execScanEdge_keepsPort level s
  | gateChange level => exact .unlessHeld (.next rfl)
  | trigEdge level => exact .unlessHeld (.next rfl)
  | slotEnd codes => exact execSlotEnd_keepsPort codes s
  | rowCommit => exact execRowCommit_keepsPort s
  | take => exact execTake_keepsPort s
  | moveCopy | moveAdds | moveSubs | moveMin | moveMax | moveMean => exact .onElement fun r => moveElement_keepsPort _ r s
  | fill => exact .onElement fun r => fillElement_keepsPort r s
  | srchAbove | srchBelow | srchRise | srchFall | srchFlagged | srchMarked | srchVoided =>
    exact .onElement fun r => srchElement_keepsPort _ r s
  | rduc => exact .onElement fun r => rducElement_keepsPort r s
  | xrd => exact .onElement fun r => xrdElement_keepsPort r s
  | xwr => exact .onElement fun r => xwrElement_keepsPort r s
  | xdataRead => exact execXdataRead_keepsPort s
  | xdataWrite w => exact .unlessHeld (.next (writeXdata_hpi w s))
  | transferTimeout => exact execTransferTimeout_keepsPort s
  | eventsWrite w => exact .unlessHeld (.next rfl)
  | enablesWrite w => exact .unlessHeld (.next rfl)
  | windowWrite offset w => exact .unlessHeld (.next (windowWrite_hpi hw w s))

/-! ## Requests -/

/-! No check of a request answers NONE, which is no refusal reason (R170, R171). -/

theorem armRefusal_ne_none (s : State) : armRefusal s ≠ some .none := by
  unfold armRefusal; split_ifs <;> simp

theorem stopRefusal_ne_none (s : State) : stopRefusal s ≠ some .none := by
  unfold stopRefusal; split_ifs <;> simp

theorem trigRefusal_ne_none (s : State) : trigRefusal s ≠ some .none := by
  unfold trigRefusal; (repeat' split) <;> simp

theorem submitRefusal_ne_none (s : State) : submitRefusal s ≠ some .none := by
  unfold submitRefusal; split_ifs <;> simp

theorem abortRefusal_ne_none (s : State) : abortRefusal s ≠ some .none := by
  unfold abortRefusal; split_ifs <;> simp

theorem flushRefusal_ne_none (s : State) : flushRefusal s ≠ some .none := by
  unfold flushRefusal; split_ifs <;> simp

theorem popRefusal_ne_none (s : State) : popRefusal s ≠ some .none := by
  unfold popRefusal; split_ifs <;> simp

theorem rlsRefusal_ne_none (n : BitVec 12) (s : State) : rlsRefusal n s ≠ some .none := by
  unfold rlsRefusal; (repeat' split) <;> simp

/-! No effect of an accepted request reaches the host port; the outcome word is set after it. -/

theorem armEffect_hpi (s : State) : (armEffect s).hpi = s.hpi := by
  unfold armEffect; split <;> rfl

theorem abortEffect_hpi (s : State) : (abortEffect s).hpi = s.hpi := by
  unfold abortEffect; (repeat' split) <;> rfl

theorem flushEffect_hpi (s : State) : (flushEffect s).hpi = s.hpi := by
  suffices h : ∀ (queue : List Staged) (u : State), (queue.foldl flushOne u).hpi = u.hpi from h s.cq.queue s
  intro queue
  induction queue with
  | nil => exact fun u => rfl
  | cons c rest ih => exact fun u => ih (flushOne u c)

theorem rlsEffect_hpi (n : BitVec 12) (s : State) : (rlsEffect n s).hpi = s.hpi := by
  unfold rlsEffect; (repeat' split) <;> rfl

/-- The outcome word holds `code` with an outcome that is not NONE, and the table pointer is as it was (R171). -/
def OutcomeSet (code : BitVec 4) (s t : State) : Prop :=
  ∃ r : Reason, r ≠ .none ∧ t.hpi = { s.hpi with code := code, reason := r }

/-- A request sets the outcome word, whether it is refused or accepted. -/
theorem request_outcomeSet {code : BitVec 4} {check : State → Option Reason} {act : State → State}
    (hcheck : check s ≠ some .none) (hact : (act s).hpi = s.hpi) : OutcomeSet code s (s.request code check act) := by
  rcases s.request_cases code check act with ⟨-, he⟩ | ⟨-, r, hr, he⟩ | ⟨-, -, he⟩
  · exact ⟨.init, by simp, by rw [he, State.refuse_hpi]⟩
  · exact ⟨r, by rintro rfl; exact hcheck hr, by rw [he, State.refuse_hpi]⟩
  · exact ⟨.accepted, by simp, by rw [he, State.outcome_hpi, hact]⟩

/-- A code that names no request is read as such, whatever stands in the argument bits (R170). -/
theorem requestOf_badCode {code : BitVec 4} (h : BadCode code = true) :
    requestOf (code.setWidth 16) = .badCodeRequest code := by
  revert code; decide

/-- A request with a code that names none is refused, after the sweep with BAD_CODE (R14, R170). -/
theorem badCodeState_eq (code : BitVec 4) (s : State) :
    badCodeState code s = s.refuse code (if s.sweeping then .init else .badCode) := by
  cases hs : s.sweeping with
  | true => rw [badCodeState, State.request_init hs]; rfl
  | false => rw [badCodeState, State.request_refused hs rfl]; rfl

/-- BAD_CODE_REQUEST with a code that names no request (R170). -/
theorem exec_badCodeRequest {code : BitVec 4} (h : BadCode code = true) (hs : s.held = false) :
    exec (.badCodeRequest code) s = .next (s.refuse code (if s.sweeping then .init else .badCode)) := by
  show execBadCodeRequest code s = _
  rw [execBadCodeRequest, State.unlessHeld_of hs, requestOf_badCode h, ← badCodeState_eq]
  rfl

/-- The code that a request is written with (spec 11 §11.4). -/
def requestCode : Instr → BitVec 4
  | .srst => 1#4
  | .arm => 2#4
  | .stop => 3#4
  | .trig => 4#4
  | .submit => 5#4
  | .abort => 6#4
  | .flush => 7#4
  | .pop => 8#4
  | .rls _ => 9#4
  | .badCodeRequest code => code
  | _ => 0#4

/-- Every request but SRST sets the outcome word to its own code and leaves the table pointer. -/
theorem exec_request {c : Instr} (hs : s.held = false) (hw : c.wellFormed = true) (hr : isRequest c = true)
    (hne : c ≠ .srst) (h : exec c s = .next t) : OutcomeSet (requestCode c) s t := by
  have done : ∀ {code check act}, check s ≠ some .none → (act s).hpi = s.hpi →
      s.unlessHeld (.next (s.request code check act)) = .next t → OutcomeSet code s t := by
    intro code check act hcheck hact h
    rw [State.unlessHeld_of hs] at h
    cases h
    exact request_outcomeSet hcheck hact
  cases c with
  | srst => exact absurd rfl hne
  | arm => exact done (armRefusal_ne_none s) (armEffect_hpi s) h
  | stop => exact done (stopRefusal_ne_none s) s.stopOutcome_hpi h
  | trig => exact done (act := trigEffect) (trigRefusal_ne_none s) rfl h
  | submit => exact done (act := submitEffect) (submitRefusal_ne_none s) rfl h
  | abort => exact done (abortRefusal_ne_none s) (abortEffect_hpi s) h
  | flush => exact done (flushRefusal_ne_none s) (flushEffect_hpi s) h
  | pop => exact done (act := popEffect) (popRefusal_ne_none s) rfl h
  | rls n => exact done (rlsRefusal_ne_none n s) (rlsEffect_hpi n s) h
  | badCodeRequest code =>
    rw [exec_badCodeRequest hw hs] at h
    cases h
    exact ⟨_, by split <;> simp, rfl⟩
  | _ => cases hr

/-! ## Resets and the table port -/

/-- SRST leaves table SCAN, index 0, no auto-increment, and its own code with ACCEPTED (R171, R172). -/
theorem exec_srst_hpi (hs : s.held = false) (h : exec .srst s = .next t) : t.hpi = ⟨.scan, 0, false, 1#4, .accepted⟩ := by
  change s.unlessHeld _ = _ at h
  rw [State.unlessHeld_of hs] at h
  cases h
  rfl

/-- A power-on reset leaves table SCAN, index 0, no auto-increment, and code 0 with NONE (R166, R171). -/
theorem exec_powerOnReset_hpi {held gate : Bool} {edges : EdgeLines} (h : exec (.powerOnReset held gate edges) s = .next t) :
    t.hpi = ⟨.scan, 0, false, 0#4, .none⟩ := by
  cases h
  rfl

/-- An owner that accepts a table word leaves the host port. -/
theorem writeTable_hpi {w : Word} {u : State} (h : writeTable s w = some u) : u.hpi = s.hpi := by
  unfold writeTable writeScan writeAcq at h
  split at h
  · split at h
    · split at h
      · obtain ⟨_, -, rfl⟩ := Option.map_eq_some_iff.mp h
        rfl
      · cases h
    · cases h
  · split at h
    · obtain ⟨_, -, rfl⟩ := Option.map_eq_some_iff.mp h
      unfold acqWritten
      (repeat' split) <;> rfl
    · cases h
  · cases h
  · cases h

/-- The owner's answer, or the discard with ACCESS, leaves the host port (R168). -/
theorem writeTable_getD_hpi (s : State) (w : Word) : ((writeTable s w).getD s.setAccess).hpi = s.hpi := by
  cases h : writeTable s w with
  | none => rfl
  | some u => exact writeTable_hpi h

/-- An access of TDATA moves the index as R166 says and leaves the rest of the host port. -/
theorem advance_indexMoved {u : State} (hu : u.hpi = s.hpi) (hi : s.hpi.index < s.hpi.table.size) :
    IndexMoved s u.advance := by
  unfold IndexMoved State.advance
  rw [hu]
  cases hinc : s.hpi.autoInc with
  | false => simp only [Bool.false_eq_true, if_false]; exact hu
  | true =>
    simp only [if_true]
    by_cases hlast : s.hpi.index + 1 = s.hpi.table.size
    · rw [if_pos hlast, hlast, Nat.mod_self]
    · rw [if_neg hlast, Nat.mod_eq_of_lt (by omega)]

/-- TDATA_READ (R167). -/
theorem exec_tdataRead (hs : s.held = false) : exec .tdataRead s = .next (readTdata s) := by
  show execTdataRead s = _
  simp [execTdataRead, hs]

/-- TDATA_WRITE (R168). -/
theorem exec_tdataWrite (hs : s.held = false) (w : Word) : exec (.tdataWrite w) s = .next (writeTdata w s) :=
  State.unlessHeld_of hs

/-- TPTR_WRITE (R166). -/
theorem exec_tptrWrite (hs : s.held = false) (w : Word) : exec (.tptrWrite w) s = .next (writeTptr w s) :=
  State.unlessHeld_of hs

/-- Whatever the index, an access of TDATA leaves the outcome word. -/
theorem advance_outcome (u : State) : u.advance.hpi.code = u.hpi.code ∧ u.advance.hpi.reason = u.hpi.reason := by
  unfold State.advance
  split <;> exact ⟨rfl, rfl⟩

/-- No command but a request or a power-on reset changes the outcome word (R171). -/
theorem exec_outcome_kept {c : Instr} (hs : s.held = false) (hw : c.wellFormed = true) (hr : isRequest c = false)
    (hp : ∀ h g e, c ≠ .powerOnReset h g e) (h : exec c s = .next t) :
    t.hpi.code = s.hpi.code ∧ t.hpi.reason = s.hpi.reason := by
  by_cases h1 : ∃ v, c = .tptrWrite v
  · obtain ⟨v, rfl⟩ := h1
    rw [exec_tptrWrite hs] at h
    cases h
    exact ⟨rfl, rfl⟩
  by_cases h2 : c = .tdataRead
  · subst h2
    rw [exec_tdataRead hs] at h
    cases h
    simpa [readTdata] using advance_outcome (s.give (s.tableWord s.hpi.table s.hpi.index)).capture
  by_cases h3 : ∃ v, c = .tdataWrite v
  · obtain ⟨v, rfl⟩ := h3
    rw [exec_tdataWrite hs] at h
    cases h
    simpa [writeTdata, writeTable_getD_hpi] using advance_outcome ((writeTable s v).getD s.setAccess)
  have hkept := exec_hpi hw hr hp (not_exists.mp h1) h2 (not_exists.mp h3) t h
  simp [hkept]

/-! ## The words that the host reads -/

/-- The code of a reason fits its field of five bits (spec 11 §11.4). -/
theorem Reason.code_lt (r : Reason) : r.code < 32 := by
  cases r <;> decide

/-- A read of REQ shows the code in bits 0–3 and the outcome in bits 8–12 (R171). -/
theorem readWindow_req (h : t.held = false) :
    field (t.readWindow 0x00#5) 0 4 = t.hpi.code.toNat ∧ field (t.readWindow 0x00#5) 8 5 = t.hpi.reason.code := by
  have hword : t.readWindow 0x00#5 = BitVec.ofNat 16 (t.hpi.code.toNat + 256 * t.hpi.reason.code) := by
    simp [State.readWindow, h, State.outcomeWord]
  have hcode := t.hpi.code.isLt
  have hreason := Reason.code_lt t.hpi.reason
  rw [hword, field_ofNat16 _ _ _ (by omega), field_ofNat16 _ _ _ (by omega)]
  omega

/-- A read of TPTR shows index, table and auto-increment bit (R166). -/
theorem readWindow_tptr (h : s.held = false) (hi : s.hpi.index < s.hpi.table.size) :
    field (s.readWindow 0x04#5) 0 6 = s.hpi.index ∧ field (s.readWindow 0x04#5) 8 2 = s.hpi.table.code ∧
      (s.readWindow 0x04#5).getLsbD 15 = s.hpi.autoInc := by
  have hword : s.readWindow 0x04#5 =
      BitVec.ofNat 16 (s.hpi.index + 256 * s.hpi.table.code + 32768 * s.hpi.autoInc.toNat) := by
    simp [State.readWindow, h, State.tptrWord]
  have hsize : s.hpi.table.size ≤ 64 := by cases s.hpi.table <;> decide
  have hcode : s.hpi.table.code < 4 := by cases s.hpi.table <;> decide
  rw [hword, field_ofNat16 _ _ _ (by omega), field_ofNat16 _ _ _ (by omega), getLsbD_ofNat16 _ _ (by omega)]
  cases s.hpi.autoInc with
  | false => simp only [Bool.toNat_false, decide_eq_false_iff_not]; omega
  | true => simp only [Bool.toNat_true, decide_eq_true_eq]; omega

/-! ## The statements -/

/-- Settles O30: each command by its kind, a request, a reset or neither. -/
theorem outcomeWordHoldsLastRequest : Obligations.OutcomeWordHoldsLastRequest := by
  intro c s t hs hw h
  have hset : isRequest c = true → c ≠ .srst → OutcomeSet (requestCode c) s t := fun hr hne =>
    exec_request hs hw hr hne h
  have hcode : isRequest c = true → c ≠ .srst → t.hpi.code = requestCode c := fun hr hne => by
    obtain ⟨r, -, he⟩ := hset hr hne
    rw [he]
  refine ⟨fun hr hp => exec_outcome_kept hs hw hr hp h, ?_, ?_, ?_, ?_, ?_, ?_, ?_, ?_, ?_, ?_, ?_, ?_, readWindow_req⟩
  · rintro held g e rfl
    rw [exec_powerOnReset_hpi h]
    exact ⟨rfl, rfl⟩
  · rintro rfl
    rw [exec_srst_hpi hs h]
    exact ⟨rfl, rfl⟩
  · intro hr
    by_cases hne : c = .srst
    · subst hne
      rw [exec_srst_hpi hs h]
      simp
    · obtain ⟨r, hr, he⟩ := hset hr hne
      rw [he]
      exact hr
  iterate 7
    · rintro rfl
      exact hcode rfl (by simp)
  · rintro n rfl
    exact hcode rfl (by simp)
  · rintro code rfl
    rw [exec_badCodeRequest hw hs] at h
    cases h
    exact ⟨rfl, rfl⟩

/-- The tables with their codes and sizes, as R166 lists them. -/
theorem mem_tables {p : Nat × TableName × Nat} :
    p ∈ [(0, TableName.scan, 64), (1, .acq, 16), (2, .record, 64), (3, .count, 8)] ↔
      p = (p.2.1.code, p.2.1, p.2.1.size) := by
  obtain ⟨code, table, size⟩ := p
  cases table <;> simp [TableName.code, TableName.size]

/-- The two bits of a table's code name that table (spec 11 §11.4). -/
theorem tableOf_code (table : TableName) : tableOf table.code = table := by
  cases table <;> rfl

/-- The last index of a table, by its number. -/
theorem indexMoved_iff (s t : State) :
    IndexMoved s t ↔
      t.hpi = { s.hpi with
        index :=
          if s.hpi.autoInc then (if s.hpi.index = s.hpi.table.size - 1 then 0 else s.hpi.index + 1)
          else s.hpi.index } := by
  have hsize : 1 ≤ s.hpi.table.size := by cases s.hpi.table <;> decide
  have hlast : s.hpi.index + 1 = s.hpi.table.size ↔ s.hpi.index = s.hpi.table.size - 1 := by omega
  simp only [IndexMoved, hlast]

/-- Settles O51: a write of TPTR, the read and the moves of an index within its table, and the frame of every other
command. -/
theorem tablePointer : Obligations.TablePointer := by
  intro s t w hs tables
  refine ⟨fun p hp hcode => ?_, fun p hp htable hi => ⟨?_, fun c hc h => ?_⟩, fun c hw h => ⟨fun held g e hc => ?_, ?_⟩⟩
  · rw [mem_tables.mp hp] at hcode
    have hname : tableOf (field w 8 2) = p.2.1 := by rw [hcode, tableOf_code]
    have hsize : p.2.1.size = p.2.2 := by rw [mem_tables.mp hp]
    rw [exec_tptrWrite hs, writeTptr, hname, hsize]
  · rw [mem_tables.mp hp] at hi ⊢
    rw [← htable] at hi ⊢
    exact readWindow_tptr hs hi
  · rw [mem_tables.mp hp] at hi ⊢
    rw [← htable] at hi ⊢
    rw [← indexMoved_iff]
    have hc' : c = .tdataRead ∨ c = .tdataWrite w := by simpa using hc
    rcases hc' with rfl | rfl
    · rw [exec_tdataRead hs] at h
      cases h
      exact advance_indexMoved (by simp) hi
    · rw [exec_tdataWrite hs] at h
      cases h
      exact advance_indexMoved (writeTable_getD_hpi s w) hi
  · rcases hc with rfl | rfl
    · rw [exec_powerOnReset_hpi h]
      exact ⟨rfl, rfl, rfl⟩
    · rw [exec_srst_hpi hs h]
      exact ⟨rfl, rfl, rfl⟩
  · intro hp hne h1 h2 h3
    cases hr : isRequest c with
    | true =>
      obtain ⟨r, -, he⟩ := exec_request hs hw hr hne h
      rw [he]
      exact ⟨rfl, rfl, rfl⟩
    | false =>
      rw [exec_hpi hw hr hp h1 h2 h3 t h]
      exact ⟨rfl, rfl, rfl⟩

end Sys2Proof.Machine.HostPortMoves
end

section
/-! SUPPORT. The words of the SCAN and ACQ tables under a write: a word that is accepted reads as written in the bits
that name a field, every other word reads as before, and a write is accepted exactly when R30 and R49 let it. -/

namespace Sys2Proof.Machine.TableWords

open Sys2Proof.Machine.HostPortMoves

variable {s u : State}

/-! ## Fields as numbers -/

/-- A field of a word, by the word's number. -/
theorem field_eq (w : Word) (lo len : Nat) : field w lo len = w.toNat / 2 ^ lo % 2 ^ len := by
  rw [field, BitVec.extractLsb'_toNat, Nat.shiftRight_eq_div_pow]

/-- A bit of a word, by the word's number. -/
theorem toNat_getLsbD (w : Word) (i : Nat) : (w.getLsbD i).toNat = w.toNat / 2 ^ i % 2 := by
  rw [BitVec.getLsbD, Nat.testBit_eq_decide_div_mod_eq]
  rcases Nat.mod_two_eq_zero_or_one (w.toNat / 2 ^ i) with h | h <;> simp [h]

/-- A mask of the lowest `k` bits keeps the word's number modulo 2 to the `k`. -/
theorem and_lowMask (w m : Word) (k : Nat) (hm : m.toNat = 2 ^ k - 1) :
    w &&& m = BitVec.ofNat 16 (w.toNat % 2 ^ k) := by
  apply BitVec.eq_of_toNat_eq
  rw [BitVec.toNat_and, hm, Nat.and_two_pow_sub_one_eq_mod, BitVec.toNat_ofNat,
    Nat.mod_eq_of_lt (lt_of_le_of_lt (Nat.mod_le _ _) w.isLt)]

/-- The mask of all sixteen bits keeps the word. -/
theorem and_fullMask (w m : Word) (hm : m.toNat = 2 ^ 16 - 1) : w &&& m = BitVec.ofNat 16 w.toNat := by
  rw [and_lowMask w m 16 hm, Nat.mod_eq_of_lt w.isLt]

/-! ## Codes of the layout table: which numbers name a value, and what the value reads as -/

theorem sourceOf_code {n : Nat} {x : Source} (h : sourceOf n = some x) : x.code = n := by
  unfold sourceOf at h
  split_ifs at h <;> cases h <;> simp_all [Source.code]

theorem sourceOf_isSome (n : Nat) : (sourceOf n).isSome = true ↔ n ≤ 13 := by
  unfold sourceOf
  split_ifs <;> simp <;> omega

theorem referenceOf_code {n : Nat} {x : Reference} (h : referenceOf n = some x) : x.code = n := by
  unfold referenceOf at h
  split at h <;> cases h <;> rfl

theorem referenceOf_isSome (n : Nat) : (referenceOf n).isSome = true ↔ n ≤ 2 := by
  match n with
  | 0 | 1 | 2 => simp [referenceOf]
  | n + 3 => simp [referenceOf]

theorem powerOf_num {n : Nat} {x : Power} (h : powerOf n = some x) : x.num = n := by
  unfold powerOf at h
  split at h <;> cases h <;> rfl

theorem powerOf_isSome (n : Nat) : (powerOf n).isSome = true ↔ n ∈ [1, 2, 4, 8] := by
  unfold powerOf
  split <;> simp_all

theorem prescalerOf_num {n : Nat} {x : Prescaler} (h : prescalerOf n = some x) : x.num = n := by
  unfold prescalerOf at h
  split at h <;> cases h <;> rfl

theorem prescalerOf_isSome (n : Nat) : (prescalerOf n).isSome = true ↔ n ∈ [1, 4, 16, 64, 256, 1024] := by
  unfold prescalerOf
  split <;> simp_all

theorem timerModeOf_code {n : Nat} {x : TimerMode} (h : timerModeOf n = some x) : x.code = n := by
  unfold timerModeOf at h
  split at h <;> cases h <;> rfl

theorem timerModeOf_isSome {n : Nat} (h : n < 4) : (timerModeOf n).isSome = true ↔ n ≠ 3 := by
  interval_cases n <;> simp [timerModeOf]

theorem senseOf_code {n : Nat} {x : Sense} (h : senseOf n = some x) : x.code = n := by
  unfold senseOf at h
  split at h <;> cases h <;> rfl

theorem senseOf_isSome {n : Nat} (h : n < 4) : (senseOf n).isSome = true ↔ n ≠ 0 := by
  interval_cases n <;> simp [senseOf]

/-- A field fits its width. -/
theorem field_lt (w : Word) (lo len : Nat) : field w lo len < 2 ^ len := BitVec.isLt _

/-! ## A slot of the SCAN table (R30) -/

/-- The bits that name a field are the same in every slot. -/
theorem tableMask_scan_mod (i : Nat) : tableMask .scan (i % 4) = tableMask .scan i := by
  simp only [tableMask, Nat.mod_mod]

/-- An accepted word of a slot reads as written in the bits that name a field. -/
theorem Slot.word_withWord_self {d d' : Slot} {i : Nat} {w : Word} (h : d.withWord i w = some d') (hi : i < 4) :
    d'.word i = w &&& tableMask .scan i := by
  have hcode : (w.extractLsb' 0 12).toNat = w.toNat / 2 ^ 0 % 2 ^ 12 := field_eq w 0 12
  match i, hi with
  | 0, _ =>
    rw [and_lowMask w (tableMask .scan 0) 7 rfl]
    simp only [Slot.withWord] at h
    split at h
    · next src ref hsrc href =>
      cases h
      simp only [Slot.word, sourceOf_code hsrc, referenceOf_code href, field_eq, toNat_getLsbD]
      congr 1
      omega
    · cases h
  | 1, _ =>
    rw [and_lowMask w (tableMask .scan 1) 12 rfl]
    obtain ⟨a, ha, rfl⟩ := Option.map_eq_some_iff.mp h
    have hsettle : (w.extractLsb' 0 8).toNat = w.toNat / 2 ^ 0 % 2 ^ 8 := field_eq w 0 8
    simp only [Slot.word, powerOf_num ha, field_eq, hsettle]
    congr 1
    omega
  | 2, _ =>
    rw [and_lowMask w (tableMask .scan 2) 12 rfl]
    simp only [Slot.withWord] at h
    split at h <;> cases h
    simp [Slot.word, hcode]
  | 3, _ =>
    rw [and_lowMask w (tableMask .scan 3) 12 rfl]
    simp only [Slot.withWord] at h
    split at h <;> cases h
    simp [Slot.word, hcode]

/-- A write of one word of a slot leaves its other words. -/
theorem Slot.word_withWord_other {d d' : Slot} {i j : Nat} {w : Word} (h : d.withWord i w = some d') (hi : i < 4)
    (hj : j < 4) (hne : j ≠ i) : d'.word j = d.word j := by
  have hfields : (i ≠ 0 → d'.source = d.source ∧ d'.reference = d.reference ∧ d'.limits = d.limits) ∧
      (i ≠ 1 → d'.settle = d.settle ∧ d'.average = d.average) ∧ (i ≠ 2 → d'.low = d.low) ∧
      (i ≠ 3 → d'.high = d.high) := by
    match i, hi with
    | 0, _ =>
      simp only [Slot.withWord] at h
      split at h <;> cases h
      simp
    | 1, _ =>
      obtain ⟨a, -, rfl⟩ := Option.map_eq_some_iff.mp h
      simp
    | 2, _ | 3, _ =>
      simp only [Slot.withWord] at h
      split at h <;> cases h
      simp
  obtain ⟨h0, h1, h2, h3⟩ := hfields
  interval_cases j
  · obtain ⟨hsource, hreference, hlimits⟩ := h0 hne.symm
    simp only [Slot.word, hsource, hreference, hlimits]
  · obtain ⟨hsettle, haverage⟩ := h1 hne.symm
    simp only [Slot.word, hsettle, haverage]
  · simp only [Slot.word, h2 hne.symm]
  · simp only [Slot.word, h3 hne.symm]

/-! ## The ACQ table (R48, R49) -/

/-- An accepted word of the ACQ table reads as written in the bits that name a field. -/
theorem AcqTable.word_withWord_self {c c' : AcqTable} {i : Nat} {w : Word} (h : c.withWord i w = some c') :
    c'.word i = w &&& tableMask .acq i := by
  unfold AcqTable.withWord at h
  split at h
  case h_1 | h_2 | h_3 | h_4 | h_5 =>
    split at h <;> cases h
    exact (and_fullMask w _ rfl).symm
  case h_6 =>
    cases h
    rw [and_lowMask w (tableMask .acq 5) 4 rfl]
    simp only [AcqTable.word, Sources.code, bitsToNat, toNat_getLsbD]
    congr 1
    omega
  case h_7 =>
    obtain ⟨x, hx, rfl⟩ := Option.map_eq_some_iff.mp h
    have hslot : ((w.extractLsb' 0 4).toFin : Fin 16).val = w.toNat / 2 ^ 0 % 2 ^ 4 := field_eq w 0 4
    rw [and_lowMask w (tableMask .acq 6) 6 rfl]
    simp only [AcqTable.word, senseOf_code hx, field_eq, hslot]
    congr 1
    omega
  case h_8 =>
    split at h <;> cases h
    exact (and_fullMask w _ rfl).symm
  case h_9 =>
    cases h
    rw [and_lowMask w (tableMask .acq 8) 4 rfl]
    simp only [AcqTable.word, bitsToNat, toNat_getLsbD]
    congr 1
    omega
  case h_10 =>
    obtain ⟨x, hx, rfl⟩ := Option.map_eq_some_iff.mp h
    rw [and_lowMask w (tableMask .acq 9) 2 rfl]
    simp [AcqTable.word, timerModeOf_code hx, field_eq]
  case h_11 =>
    obtain ⟨x, hx, rfl⟩ := Option.map_eq_some_iff.mp h
    rw [and_fullMask w (tableMask .acq 10) rfl]
    simp only [AcqTable.word, prescalerOf_num hx]
  case h_12 =>
    cases h
    rw [and_fullMask w (tableMask .acq 11) rfl]
    simp [AcqTable.word]
  case h_13 =>
    obtain ⟨x, hx, rfl⟩ := Option.map_eq_some_iff.mp h
    rw [and_fullMask w (tableMask .acq 12) rfl]
    simp only [AcqTable.word, powerOf_num hx]
  case h_14 =>
    cases h
    have htimeout : (w.extractLsb' 0 8).toNat = w.toNat / 2 ^ 0 % 2 ^ 8 := field_eq w 0 8
    rw [and_lowMask w (tableMask .acq 13) 8 rfl]
    simp [AcqTable.word, htimeout]
  case h_15 => cases h

/-- A write of one word of the ACQ table leaves its other words. -/
theorem AcqTable.word_withWord_other {c c' : AcqTable} {i j : Nat} {w : Word} (h : c.withWord i w = some c')
    (hne : j ≠ i) : c'.word j = c.word j := by
  unfold AcqTable.withWord at h
  split at h
  case h_15 => cases h
  case h_6 | h_9 | h_12 | h_14 =>
    cases h
    unfold AcqTable.word
    split <;> first | rfl | exact absurd rfl hne
  case h_7 | h_10 | h_11 | h_13 =>
    obtain ⟨x, -, rfl⟩ := Option.map_eq_some_iff.mp h
    unfold AcqTable.word
    split <;> first | rfl | exact absurd rfl hne
  case h_1 | h_2 | h_3 | h_4 | h_5 | h_8 =>
    split at h <;> cases h
    unfold AcqTable.word
    split <;> first | rfl | exact absurd rfl hne

/-! ## When a write is accepted (R7, R30, R49, R168) -/

theorem acqIdle_iff : s.acqIdle = true ↔ s.acq.state = .idle := by
  simp [State.acqIdle]

/-- A word of a slot is accepted by its own rule, whatever the slot holds. -/
theorem tdataAccepts_scan (w : Word) (d : Slot) (ht : s.hpi.table = .scan) :
    TdataAccepts s w ↔ s.acq.state = .idle ∧ (d.withWord (s.hpi.index % 4) w).isSome = true := by
  have hlt : s.hpi.index % 4 < 4 := Nat.mod_lt _ (by decide)
  unfold TdataAccepts
  rw [ht]
  dsimp only
  generalize s.hpi.index % 4 = k at hlt ⊢
  match k, hlt with
  | 0, _ =>
    have hword : (d.withWord 0 w).isSome = true ↔
        (sourceOf (field w 0 4)).isSome = true ∧ (referenceOf (field w 4 2)).isSome = true := by
      unfold Slot.withWord
      cases sourceOf (field w 0 4) <;> cases referenceOf (field w 4 2) <;> simp
    simp only [hword, sourceOf_isSome, referenceOf_isSome]
  | 1, _ => simp only [Slot.withWord, Option.isSome_map, powerOf_isSome]
  | 2, _ | 3, _ => simp [Slot.withWord]

/-- A word of the ACQ table is accepted where it is open to a write and lies in its range: word by word, as R48 lists
them. -/
theorem tdataAccepts_acq (w : Word) (ht : s.hpi.table = .acq) (hi : s.hpi.index < 16) :
    TdataAccepts s w ↔ acqUnlocked s s.hpi.index = true ∧ (s.acq.cfg.withWord s.hpi.index w).isSome = true := by
  have hsense := senseOf_isSome (field_lt w 4 2)
  have hmode := timerModeOf_isSome (field_lt w 0 2)
  unfold TdataAccepts
  rw [ht]
  generalize s.hpi.index = i at hi ⊢
  interval_cases i <;>
    simp [acqUnlocked, AcqTable.withWord, acqIdle_iff, State.allFree_iff, and_assoc, hsense, hmode, powerOf_isSome,
      prescalerOf_isSome]

/-- The owner of the named table accepts a word exactly when R168 lets it. -/
theorem writeTable_isSome (w : Word) (hi : s.hpi.index < s.hpi.table.size) :
    (writeTable s w).isSome = true ↔ TdataAccepts s w := by
  unfold writeTable
  cases ht : s.hpi.table with
  | scan =>
    have hslot : s.hpi.index / 4 < 16 := by rw [ht, TableName.size] at hi; omega
    rw [tdataAccepts_scan w s.cnv.slots[s.hpi.index / 4] ht, ← acqIdle_iff]
    simp only [writeScan, hslot, dif_pos]
    cases s.acqIdle <;> simp
  | acq =>
    rw [ht] at hi
    rw [tdataAccepts_acq w ht hi]
    simp only [writeAcq]
    cases acqUnlocked s s.hpi.index <;> simp
  | record => simp [TdataAccepts, ht]
  | count => simp [TdataAccepts, ht]

/-! ## What an accepted write does -/

theorem acqWritten_acq (s : State) (i : Nat) (c : AcqTable) :
    (acqWritten s i c).acq = { s.acq with cfg := c, writer := if i ≤ 1 then c.ringBase else s.acq.writer } := by
  unfold acqWritten
  split
  · rfl
  · rfl
  · split <;> rfl
  · next h0 h1 h2 =>
    have hi : ¬i ≤ 1 := by
      intro hle
      interval_cases i
      · exact h0 rfl
      · exact h1 rfl
    rw [if_neg hi]

theorem acqWritten_stm (s : State) (i : Nat) (c : AcqTable) :
    (acqWritten s i c).stm =
      if i = 11 ∧ s.timerRunning = false then { s.stm with active := periodTicks c.period } else s.stm := by
  unfold acqWritten
  split
  · rfl
  · rfl
  · cases s.timerRunning <;> rfl
  · next h0 h1 h2 => rw [if_neg fun h => h2 h.1]

theorem acqWritten_keptBut (s : State) (i : Nat) (c : AcqTable) : KeptBut [.acq, .stm] s (acqWritten s i c) := by
  have hcases : acqWritten s i c = { s with acq := (acqWritten s i c).acq, stm := (acqWritten s i c).stm } := by
    unfold acqWritten
    (repeat' split) <;> rfl
  rw [hcases]
  intro b hb
  cases b with
  | acq | stm => simp at hb
  | _ => rfl

/-- An accepted write of the word `w` at the table pointer, before the index moves (R7, R18, R19, R30, R53, R168). -/
structure WordWritten (s : State) (w : Word) (u : State) : Prop where
  word : u.tableWord s.hpi.table s.hpi.index = w &&& tableMask s.hpi.table s.hpi.index
  others : ∀ table i, table ≠ .count → (table, i) ≠ (s.hpi.table, s.hpi.index) → u.tableWord table i = s.tableWord table i
  writer : u.acq.writer = if s.hpi.table = .acq ∧ s.hpi.index ≤ 1 then u.acq.cfg.ringBase else s.acq.writer
  timer : u.stm =
    if s.hpi.table = .acq ∧ s.hpi.index = 11 ∧ s.timerRunning = false then { s.stm with active := periodTicks w }
    else s.stm
  sequencer : u.acq.state = s.acq.state ∧ u.acq.committed = s.acq.committed ∧ u.acq.dropped = s.acq.dropped ∧
    u.acq.holding = s.acq.holding
  scan : u.cnv.scan = s.cnv.scan
  kept : KeptBut [.acq, .cnv, .stm] s u

/-- A word of the SCAN table, by the slot that holds it. -/
theorem tableWord_scan (s : State) {i : Nat} (h : i / 4 < 16) : s.tableWord .scan i = s.cnv.slots[i / 4].word (i % 4) := by
  simp only [State.tableWord, h, dif_pos]

/-- An accepted write of a SCAN table word (R30). -/
theorem writeScan_written {w : Word} (ht : s.hpi.table = .scan) (h : writeScan s s.hpi.index w = some u) :
    WordWritten s w u := by
  unfold writeScan at h
  split at h
  case isFalse => cases h
  case isTrue hslot =>
  split at h
  case isFalse => cases h
  case isTrue hidle =>
  obtain ⟨d, hd, rfl⟩ := Option.map_eq_some_iff.mp h
  refine ⟨?_, fun table i hcount hne => ?_, ?_, ?_, ⟨rfl, rfl, rfl, rfl⟩, rfl, fun b hb => ?_⟩
  · rw [ht, tableWord_scan _ hslot, ← tableMask_scan_mod]
    simpa using Slot.word_withWord_self hd (Nat.mod_lt _ (by decide))
  · cases table with
    | acq | record => rfl
    | count => exact absurd rfl hcount
    | scan =>
      by_cases hi : i / 4 < 16
      · rw [tableWord_scan _ hi, tableWord_scan _ hi]
        by_cases hsame : s.hpi.index / 4 = i / 4
        · have hword : i % 4 ≠ s.hpi.index % 4 := fun he => hne (by rw [ht]; congr 1; omega)
          have hother := Slot.word_withWord_other hd (Nat.mod_lt _ (by decide)) (Nat.mod_lt _ (by decide)) hword
          simpa [hsame] using hother
        · simp only [Vector.getElem_set_ne _ _ hsame]
      · simp only [State.tableWord, hi, dif_neg, not_false_eq_true]
  · simp [ht]
  · simp [ht]
  · cases b with
    | acq | cnv | stm => simp at hb
    | _ => rfl

/-- An accepted write of an ACQ table word (R7, R19, R49, R53). -/
theorem writeAcq_written {w : Word} (ht : s.hpi.table = .acq) (h : writeAcq s s.hpi.index w = some u) :
    WordWritten s w u := by
  unfold writeAcq at h
  split at h
  case isFalse => cases h
  case isTrue hopen =>
  obtain ⟨c, hc, rfl⟩ := Option.map_eq_some_iff.mp h
  have hkept := acqWritten_keptBut s s.hpi.index c
  have hcnv : (acqWritten s s.hpi.index c).cnv = s.cnv := hkept .cnv (by simp)
  have hrtb : (acqWritten s s.hpi.index c).rtb = s.rtb := hkept .rtb (by simp)
  have hcfg : ∀ i, (acqWritten s s.hpi.index c).tableWord .acq i = c.word i := fun i => by
    simp only [State.tableWord, acqWritten_acq]
  refine ⟨?_, fun table i hcount hne => ?_, ?_, ?_, ?_, ?_, hkept.mono (by simp)⟩
  · rw [ht, hcfg]
    exact AcqTable.word_withWord_self hc
  · cases table with
    | scan => simp only [State.tableWord, hcnv]
    | record => simp only [State.tableWord, hrtb]
    | count => exact absurd rfl hcount
    | acq =>
      rw [hcfg]
      exact AcqTable.word_withWord_other hc fun he => hne (by rw [ht, he])
  · simp [acqWritten_acq, ht]
  · have hperiod : s.hpi.index = 11 → c.period = w := fun hi => by
      rw [hi] at hc
      cases hc
      rfl
    rw [acqWritten_stm]
    by_cases hi : s.hpi.index = 11
    · simp [ht, hi, hperiod hi]
    · simp [hi]
  · rw [acqWritten_acq]
    exact ⟨rfl, rfl, rfl, rfl⟩
  · rw [hcnv]

/-- What the owner of the named table does with a word it accepts (R168). -/
theorem writeTable_written {w : Word} (h : writeTable s w = some u) : WordWritten s w u := by
  unfold writeTable at h
  split at h
  case h_1 ht => exact writeScan_written ht h
  case h_2 ht => exact writeAcq_written ht h
  case h_3 | h_4 => cases h

/-! ## The whole access -/

theorem tableWord_advance (u : State) (table : TableName) (i : Nat) : u.advance.tableWord table i = u.tableWord table i := by
  unfold State.advance
  split <;> rfl

theorem advance_keptBut (u : State) : KeptBut [.hpi] u u.advance := by
  intro b hb
  cases b with
  | hpi => simp at hb
  | sst | stm | cnv | acq | tru | rtb | cq | rq | ble | xf | evu | held | bus | conversions | pending => simp [Block.same]

/-- Settles O53: the owner accepts exactly where R168 lets it; an accepted word is written, a discarded one sets ACCESS,
and the index moves either way. -/
theorem tdataWriteDecided : Obligations.TdataWriteDecided := by
  intro w s hs hi
  have hmoved := advance_indexMoved (writeTable_getD_hpi s w) hi
  refine ⟨fun hno => ⟨writeTdata w s, exec_tdataWrite hs w, hmoved, ?_⟩,
    fun _ _ hyes => ⟨writeTdata w s, exec_tdataWrite hs w, hmoved, ?_⟩⟩
  · have hnone : writeTable s w = none := by
      rw [← writeTable_isSome w hi] at hno
      simpa using hno
    have hresult : writeTdata w s = s.setAccess.advance := by rw [writeTdata, hnone]; rfl
    have haccess : KeptBut [.hpi, .evu] s s.setAccess := fun b hb => by
      cases b with
      | hpi | evu => simp at hb
      | _ => rfl
    rw [hresult]
    exact ⟨by simp, haccess.trans ((advance_keptBut _).mono (by simp))⟩
  · obtain ⟨u, hu⟩ := Option.isSome_iff_exists.mp ((writeTable_isSome w hi).mpr hyes)
    have hwritten := writeTable_written hu
    have hresult : writeTdata w s = u.advance := by rw [writeTdata, hu]; rfl
    simp only [hresult, tableWord_advance, State.advance_acq, State.advance_cnv, State.advance_stm]
    refine ⟨hwritten.word, fun table i hcount _ hne => hwritten.others table i hcount hne,
      fun h => hwritten.writer.trans (if_pos h), fun h => hwritten.writer.trans (if_neg h),
      fun h => hwritten.timer.trans (if_pos h), fun h => hwritten.timer.trans (if_neg h), ?_⟩
    obtain ⟨hstate, hcommitted, hdropped, hholding⟩ := hwritten.sequencer
    exact ⟨hstate, hcommitted, hdropped, hholding, hwritten.scan,
      (hwritten.kept.mono (by simp)).trans ((advance_keptBut u).mono (by simp))⟩

end Sys2Proof.Machine.TableWords
end

section
/-! SUPPORT. What one step of the block can do: a list of moves, each with the guard under which the part makes it, and
the parts of the state that each command moves. Every invariant is then proved move by move, and every frame is read
off the parts. -/

namespace Sys2Proof.Machine.Steps

variable {s t u : State}

/-! ## The parts of the state -/

/-- A part of the state that a move can write. Two stand for what a move does: `released`, that a SEALED descriptor is
given up, and `flags`, that a sticky flag is cleared. -/
inductive Part where
  | sst | stm | slots | scan | cfg | mode | writer | committed | dropped | tru | rtb | released | cq | rq | ble | xf
  | flags | port | pending
deriving DecidableEq

/-- No sticky flag falls (R158). -/
def FlagsStay (s t : State) : Prop :=
  (s.evu.sticky.sealed = true → t.evu.sticky.sealed = true) ∧
    (s.evu.sticky.acqdone = true → t.evu.sticky.acqdone = true) ∧
    (s.evu.sticky.starved = true → t.evu.sticky.starved = true) ∧
    (s.evu.sticky.trigger = true → t.evu.sticky.trigger = true) ∧
    (s.evu.sticky.late = true → t.evu.sticky.late = true) ∧
    (s.evu.sticky.blocked = true → t.evu.sticky.blocked = true) ∧
    (s.evu.sticky.xunder = true → t.evu.sticky.xunder = true) ∧
    (s.evu.sticky.xover = true → t.evu.sticky.xover = true) ∧
    (s.evu.sticky.access = true → t.evu.sticky.access = true) ∧
    (s.evu.sticky.refused = true → t.evu.sticky.refused = true) ∧
    (s.evu.sticky.init = true → t.evu.sticky.init = true)

theorem FlagsStay.of_eq (h : t.evu.sticky = s.evu.sticky) : FlagsStay s t := by
  simp only [FlagsStay, h, imp_self, and_self]

theorem FlagsStay.trans (h : FlagsStay s t) (k : FlagsStay t u) : FlagsStay s u := by
  obtain ⟨h1, h2, h3, h4, h5, h6, h7, h8, h9, h10, h11⟩ := h
  obtain ⟨k1, k2, k3, k4, k5, k6, k7, k8, k9, k10, k11⟩ := k
  exact ⟨k1 ∘ h1, k2 ∘ h2, k3 ∘ h3, k4 ∘ h4, k5 ∘ h5, k6 ∘ h6, k7 ∘ h7, k8 ∘ h8, k9 ∘ h9, k10 ∘ h10, k11 ∘ h11⟩

/-- Every SEALED descriptor keeps its fields but PINS (R89). -/
def SealedStay (s t : State) : Prop :=
  ∀ n : Fin 8, s.rtb.recs[n].state = .sealed → { t.rtb.recs[n] with pins := 0 } = { s.rtb.recs[n] with pins := 0 }

theorem SealedStay.of_eq (h : t.rtb = s.rtb) : SealedStay s t := fun n _ => by rw [h]

theorem SealedStay.state (h : SealedStay s t) {n : Fin 8} (hn : s.rtb.recs[n].state = .sealed) :
    t.rtb.recs[n].state = .sealed := by
  have := congrArg Descriptor.state (h n hn)
  exact this.trans hn

theorem SealedStay.trans (h : SealedStay s t) (k : SealedStay t u) : SealedStay s u := fun n hn =>
  (k n (h.state hn)).trans (h n hn)

/-- What it says that a move leaves a part alone. -/
def Part.kept (s t : State) : Part → Prop
  | .sst => t.sst = s.sst
  | .stm => t.stm = s.stm
  | .slots => t.cnv.slots = s.cnv.slots
  | .scan => t.cnv.scan = s.cnv.scan
  | .cfg => t.acq.cfg = s.acq.cfg
  | .mode => t.acq.state = s.acq.state
  | .writer => t.acq.writer = s.acq.writer
  | .committed => t.acq.committed = s.acq.committed
  | .dropped => t.acq.dropped = s.acq.dropped
  | .tru => t.tru = s.tru
  | .rtb => t.rtb = s.rtb
  | .released => RecordsSound s → SealedStay s t
  | .cq => t.cq = s.cq
  | .rq => t.rq = s.rq
  | .ble => t.ble = s.ble
  | .xf => t.xf = s.xf
  | .flags => FlagsStay s t
  | .port => t.hpi = s.hpi
  | .pending => t.pending = s.pending

/-! ## The moves -/

/-- One move of the engine with a command that it holds. -/
inductive EngineMove (s : State) : State → Prop
  /-- ABORT marks a command whose element has begun (R140). -/
  | mark (r : Running) (hb : s.ble = .run r) (hg : r.begun = true) :
    EngineMove s { s with ble := .run { r with aborting := true } }
  /-- The running command is answered and XF emptied (R141, R155). -/
  | answer (r : Running) (st : Status) (p : Nat) (d : Detail) (hr : s.ble.running = some r) :
    EngineMove s (s.post r.cmd st p d).emptyXf
  /-- The port begins to serve an access (R11). -/
  | serve (r : Running) (hb : s.ble = .run r) : EngineMove s { s with ble := .run { r with busy := true } }
  /-- A MOVE element waits between its accesses (R11, R126). -/
  | wait (r : Running) (reads : List Word) (hb : s.ble = .run r) (hk : r.cmd.kind = some .move) (hne : reads ≠ [])
      (hl : reads.length ≤ 2) (hc : r.cmd.op = some .copy → reads.length ≤ 1) :
    EngineMove s { s with ble := .run { r with reads := reads, busy := false } }
  /-- An element of MOVE, FILL, SRCH or RDUC is complete (R138). -/
  | element (r r' : Running) (answer : Option (Status × Detail)) (hb : s.ble = .run r)
      (hk : r.cmd.kind ≠ some .xrd ∧ r.cmd.kind ≠ some .xwr) (hcmd : r'.cmd = r.cmd)
      (hp : r'.progress = r.progress + 1) (hr : r'.reads = []) (ha : r'.aborting = r.aborting)
      (hn : answer = none → r.progress + 1 < r.cmd.total ∨ r.progress + 1 < r.cmd.h) :
    EngineMove s (s.endElement r' answer)
  /-- A source read of XRD (R145). -/
  | read (r : Running) (w : Word) (hb : s.ble = .run r) (hk : r.cmd.kind = some .xrd)
      (hl : s.xf.words.length < Config.fifoDepth) (hf : r.fetched < r.cmd.total) :
    EngineMove s (afterRead s { r with fetched := r.fetched + 1, busy := false } (s.xf.words ++ [w]))
  /-- A destination write of XWR (R146). -/
  | write (r : Running) (w : Word) (rest : List Word) (hb : s.ble = .run r) (hk : r.cmd.kind = some .xwr)
      (hw : s.xf.words = w :: rest) :
    EngineMove s (afterWrite s r.complete rest)
  /-- The host takes a word of an XRD (R148). -/
  | word (r : Running) (w : Word) (rest : List Word) (hr : s.ble.running = some r) (hk : r.cmd.kind = some .xrd)
      (hw : s.xf.words = w :: rest) :
    EngineMove s
      (afterTake { s with xf := { s.xf with last := w } } { r with progress := r.progress + 1 } rest)
  /-- The host gives a word to an XWR (R149). -/
  | feed (r : Running) (w : Word) (hr : s.ble.running = some r) (hk : r.cmd.kind = some .xwr)
      (hl : s.xf.words.length < r.capacity r.cmd.total) : EngineMove s (s.toRun r (s.xf.words ++ [w]))

/-- One move of the block, with the parts it writes. -/
inductive Move (s : State) : List Part → State → Prop
  /-- Flags are set, or the enables written. -/
  | raise (e : EventUnit) (h : FlagsStay s { s with evu := e }) : Move s [] { s with evu := e }
  /-- Sticky flags are cleared (R159). -/
  | clear (e : EventUnit) : Move s [.flags] { s with evu := e }
  /-- The host port: the outcome word, or the table pointer, which stays in its table (R166, R171). -/
  | port (p : HostPort) (h : s.hpi.index < s.hpi.table.size → p.index < p.table.size) : Move s [.port] { s with hpi := p }
  /-- A word is returned to the host. -/
  | give (w : Word) : Move s [] (s.give w)
  /-- The high half of the committed-row counter is captured (R65). -/
  | hold (w : Word) : Move s [] { s with acq := { s.acq with holding := w } }
  /-- The model's own fields: what waits, and the free codes used (log 12, 17). -/
  | model (n : Nat) (p : List Instr) : Move s [.pending] { s with conversions := n, pending := p }
  /-- A power-on reset (R174). -/
  | powerOn (held gate scan trig : Bool) :
    Move s
      [.sst, .stm, .slots, .scan, .cfg, .mode, .writer, .committed, .dropped, .tru, .rtb, .released, .cq, .rq, .ble, .xf,
        .flags, .port]
      { State.powerOn gate scan trig with held := held, conversions := s.conversions, pending := s.pending }
  /-- The sweep writes a word (R13). -/
  | sweepWord (h : s.sst.sweepPos + 1 < Config.sheetWords) :
    Move s [.sst] { s with sst := ⟨Sheet.write s.sst.cells s.sst.sweepPos voidWord, s.sst.sweepPos + 1⟩ }
  /-- The sweep ends (R13). -/
  | sweepEnd : Move s [.sst] { s with sst := ⟨[], Config.sheetWords⟩ }
  /-- A word is stored (R1). -/
  | store (a : Nat) (w : Word) (h : a < Config.sheetWords) : Move s [.sst] (s.store a w)
  /-- The soft reset after the write in service (R172). -/
  | softReset :
    Move s [.stm, .scan, .mode, .committed, .dropped, .tru, .rtb, .cq, .rq, .ble, .xf, .flags, .port]
      (softReset s.stopOutcome)
  /-- ARM (R52). -/
  | arm (n : Fin 8) (hs : s.sweeping = false) (hc : armRefusal s = none) (hn : s.lowestFree = some n) :
    Move s [.stm, .mode, .tru, .rtb]
      { (s.allocate n).startTimer with tru := ⟨false, false, false, 0, s.tru.sample⟩ }
  /-- STOP (R66). -/
  | stop : Move s [.stm, .scan, .mode, .tru, .rtb] s.stopOutcome
  /-- TRIG (R71). -/
  | latchHost (h : trigRefusal s = none) : Move s [.tru] (trigEffect s)
  /-- SUBMIT (R107). -/
  | submit (hs : s.sweeping = false) (hc : submitRefusal s = none) : Move s [.cq, .rtb] (submitEffect s)
  /-- The staging words are written (R100). -/
  | stage (c : Staged) : Move s [.cq] { s with cq := { s.cq with staging := c } }
  /-- FLUSH answers the head command (R115). -/
  | flushOne (c : Staged) (rest : List Staged) (hq : s.cq.queue = c :: rest) : Move s [.rtb, .cq, .rq] (flushOne s c)
  /-- POP (R114). -/
  | pop (e : Entry) (rest : List Place) (h : s.rq = .posted e :: rest) : Move s [.cq, .rq] (popEffect s)
  /-- RLS with no acquisition starved (R94). -/
  | release (m : Fin 8) (hs : s.sweeping = false) (hm : s.rtb.recs[m].state = .sealed) (hp : s.rtb.recs[m].pins = 0) :
    Move s [.rtb, .released] (s.freeRec m)
  /-- RLS in STARVED (R62, R95). -/
  | resume (m : Fin 8) (hs : s.sweeping = false) (hm : s.rtb.recs[m].state = .sealed) (hp : s.rtb.recs[m].pins = 0)
      (ha : s.acq.state = .starved) :
    Move s [.stm, .mode, .tru, .rtb, .released] ((s.freeRec m).allocate m).startTimer
  /-- A scan event starts a scan (R25). -/
  | scanStart (hr : s.timerRunning = true) :
    Move s [.scan] { s with cnv := { s.cnv with scan := .converting ⟨[], 0, 0, 0⟩ } }
  /-- The dropped-scan counter counts (R65). -/
  | drop : Move s [.dropped] s.countDrop
  /-- The open record gets GAP (R26, R63). -/
  | gap (n : Fin 8) (h : s.acq.state.openRec = some n) :
    Move s [.rtb] (s.setRec n { s.rtb.recs[n] with gap := true })
  /-- The pending period becomes active (R19). -/
  | promote : Move s [.stm] s.promote
  /-- The running timer is reloaded (R21). -/
  | reload (hr : s.timerRunning = true) : Move s [.stm] s.startTimer
  /-- New samples of GATE and SCAN (R24). -/
  | lines (gate scan : Bool) : Move s [.stm] { s with stm := { s.stm with gate := gate, scan := scan } }
  /-- The running timer counts (R21). -/
  | tick (p c : Nat) (hr : s.timerRunning = true) (hp : p < s.acq.cfg.prescaler.num)
      (hc : c = s.stm.counter ∨ (1 < s.stm.counter ∧ c = s.stm.counter - 1)) :
    Move s [.stm] { s with stm := { s.stm with prescale := p, counter := c } }
  /-- A new sample of TRIG, with the LINE latch (R72). -/
  | latchLine (sample line : Bool)
      (h : line = true → s.tru.line = true ∨ (s.acq.state.latching = true ∧ s.acq.cfg.mask.line = true)) :
    Move s [.tru] { s with tru := { s.tru with sample := sample, line := line } }
  /-- A slot settles and converts (R36, R37). -/
  | convert (c d : Converting) (hc : s.cnv.scan = .converting c) (hb : d.buffer = c.buffer)
      (hd : (d.taken = c.taken ∧ d.sum = c.sum) ∨
        (d.taken = c.taken + 1 ∧ d.sum ≤ c.sum + 4095 ∧
          ∀ i : Fin 16, c.buffer.length = i.val → c.taken + 1 < s.cnv.slots[i].average.num)) :
    Move s [.scan] { s with cnv := { s.cnv with scan := .converting d } }
  /-- The next slot starts (R36). -/
  | nextSlot (c : Converting) (w : Word) (hc : s.cnv.scan = .converting c)
      (hl : c.buffer.length + 1 < s.acq.cfg.listLength) :
    Move s [.scan] { s with cnv := { s.cnv with scan := .converting ⟨c.buffer ++ [w], 0, 0, 0⟩ } }
  /-- The row waits for its commit (R42, R54). -/
  | present (c : Converting) (w : Word) (hc : s.cnv.scan = .converting c)
      (hl : s.acq.cfg.listLength ≤ c.buffer.length + 1) (hb : s.blocked = false) :
    Move s [.scan] { s with cnv := { s.cnv with scan := .presented (c.buffer ++ [w]) } }
  /-- The scan ends (R63). -/
  | scanEnd : Move s [.scan] { s with cnv := { s.cnv with scan := .free } }
  /-- A row commit (R55). -/
  | commit (row : List Word) (hp : s.cnv.scan = .presented row) (hr : s.timerRunning = true) (hs : s.sweeping = false)
      (hw : s.acq.writer < Config.sheetRows) :
    Move s [.sst, .stm, .scan, .mode, .writer, .committed, .tru, .rtb] (commitRecord s row)
  /-- The head command is answered RING_BUSY (R121). -/
  | ringBusy (c : Staged) (rest : List Staged) (hb : s.ble = .idle) (hq : s.cq.queue = c :: rest) :
    Move s [.rtb, .cq, .rq]
      (({ s with cq := { s.cq with queue := rest }, rq := s.rq ++ [.pending] } : State).post c .ringBusy 0 .none)
  /-- The head command starts (R120). -/
  | start (c : Staged) (rest : List Staged) (hb : s.ble = .idle) (hq : s.cq.queue = c :: rest)
      (hc : s.acqIdle = true ∨ c.overlapsRing s.acq.cfg = false) :
    Move s [.cq, .rq, .ble, .xf]
      (startCommand { s with cq := { s.cq with queue := rest }, rq := s.rq ++ [.pending] } c)
  /-- The engine goes on with the command it holds, or answers it. -/
  | engine {v : State} (h : EngineMove s v) : Move s [.rtb, .rq, .ble, .xf] v
  /-- The last returned word (R148). -/
  | last (w : Word) : Move s [.xf] { s with xf := { s.xf with last := w } }
  /-- The timeout starts again in XWAIT (R151). -/
  | touch : Move s [.xf] s.touch
  /-- The timeout counts (R151). -/
  | timeoutTick (n : Nat) (h : s.xf.timeout = some n) (hn : 1 < n) :
    Move s [.xf] { s with xf := { s.xf with timeout := some (n - 1) } }
  /-- A word of the SCAN table is written in IDLE (R30). -/
  | slots (slots : Vector Slot 16) (hi : s.acqIdle = true) : Move s [.slots] { s with cnv := { s.cnv with slots := slots } }
  /-- A word of the ACQ table is written (R49). -/
  | table (i : Nat) (v : Word) (c : AcqTable) (hu : acqUnlocked s i = true) (hc : s.acq.cfg.withWord i v = some c) :
    Move s [.stm, .cfg, .writer] (acqWritten s i c)

/-- A sequence of moves that write no part outside `bs`. -/
def Moves (bs : List Part) : State → State → Prop :=
  Relation.ReflTransGen fun s t => ∃ cs, cs ⊆ bs ∧ Move s cs t

theorem Moves.refl {bs : List Part} (s : State) : Moves bs s s := Relation.ReflTransGen.refl

theorem Moves.one {bs cs : List Part} (h : Move s cs t) (hsub : cs ⊆ bs) : Moves bs s t :=
  Relation.ReflTransGen.single ⟨cs, hsub, h⟩

theorem Moves.trans {bs : List Part} (h : Moves bs s t) (k : Moves bs t u) : Moves bs s u :=
  Relation.ReflTransGen.trans h k

/-- One more move. -/
theorem Moves.then {bs cs : List Part} (h : Moves bs s t) (k : Move t cs u) (hsub : cs ⊆ bs) : Moves bs s u :=
  h.trans (.one k hsub)

/-- More parts can be written. -/
theorem Moves.mono {bs cs : List Part} (h : Moves bs s t) (hsub : bs ⊆ cs) : Moves cs s t :=
  Relation.ReflTransGen.mono (fun _ _ ⟨ds, hds, hm⟩ => ⟨ds, List.Subset.trans hds hsub, hm⟩) _ _ h

/-- A predicate that every move keeps is kept. -/
theorem Moves.keeps {bs : List Part} {P : State → Prop} (hP : ∀ {u v : State} {cs : List Part}, Move u cs v → P u → P v)
    (h : Moves bs s t) (hs : P s) : P t := by
  induction h with
  | refl => exact hs
  | tail _ hlast ih =>
    obtain ⟨cs, -, hm⟩ := hlast
    exact hP hm ih

/-! ## What a command moves -/

/-- The parts that the command of each row can write. -/
def touched : Instr → List Part
  | .powerOnReset _ _ _ =>
    [.sst, .stm, .slots, .scan, .cfg, .mode, .writer, .committed, .dropped, .tru, .rtb, .released, .cq, .rq, .ble, .xf,
      .flags, .port]
  | .initSweepEnd => [.sst]
  | .srst => [.sst, .stm, .scan, .mode, .committed, .dropped, .tru, .rtb, .cq, .rq, .ble, .xf, .flags, .port]
  | .arm => [.stm, .mode, .tru, .rtb, .port]
  | .stop => [.stm, .scan, .mode, .tru, .rtb, .port]
  | .trig => [.tru, .port]
  | .submit => [.cq, .rtb, .port]
  | .abort => [.rtb, .rq, .ble, .xf, .port]
  | .flush => [.rtb, .cq, .rq, .port]
  | .pop => [.cq, .rq, .port]
  | .rls _ => [.stm, .mode, .tru, .rtb, .released, .port]
  | .badCodeRequest _ => [.port]
  | .timerExpiry => [.stm, .scan, .dropped, .rtb]
  | .scanEdge _ => [.stm, .scan, .dropped, .rtb]
  | .gateChange _ => [.stm]
  | .trigEdge _ => [.tru]
  | .slotEnd _ => [.scan, .dropped, .rtb]
  | .rowCommit => [.sst, .stm, .scan, .mode, .writer, .committed, .tru, .rtb]
  | .take => [.rtb, .cq, .rq, .ble, .xf]
  | .moveCopy => [.sst, .rtb, .rq, .ble, .xf]
  | .moveAdds => [.sst, .rtb, .rq, .ble, .xf]
  | .moveSubs => [.sst, .rtb, .rq, .ble, .xf]
  | .moveMin => [.sst, .rtb, .rq, .ble, .xf]
  | .moveMax => [.sst, .rtb, .rq, .ble, .xf]
  | .moveMean => [.sst, .rtb, .rq, .ble, .xf]
  | .fill => [.sst, .rtb, .rq, .ble, .xf]
  | .xwr => [.sst, .rtb, .rq, .ble, .xf]
  | .srchAbove => [.rtb, .rq, .ble, .xf]
  | .srchBelow => [.rtb, .rq, .ble, .xf]
  | .srchRise => [.rtb, .rq, .ble, .xf]
  | .srchFall => [.rtb, .rq, .ble, .xf]
  | .srchFlagged => [.rtb, .rq, .ble, .xf]
  | .srchMarked => [.rtb, .rq, .ble, .xf]
  | .srchVoided => [.rtb, .rq, .ble, .xf]
  | .rduc => [.rtb, .rq, .ble, .xf]
  | .xrd => [.rtb, .rq, .ble, .xf]
  | .xdataRead => [.rtb, .rq, .ble, .xf]
  | .xdataWrite _ => [.rtb, .rq, .ble, .xf]
  | .transferTimeout => [.rtb, .rq, .ble, .xf]
  | .tptrWrite _ => [.port]
  | .tdataRead => [.port]
  | .tdataWrite _ => [.stm, .slots, .cfg, .writer, .port]
  | .eventsWrite _ => [.flags]
  | .enablesWrite _ => []
  | .windowWrite _ _ => [.cq]

/-- Where the meaning answers a next state, it is reached by moves of these parts. -/
def MovesBy (bs : List Part) (s : State) (out : Out) : Prop := ∀ t, out = .next t → Moves bs s t

theorem MovesBy.next {bs : List Part} (h : Moves bs s t) : MovesBy bs s (.next t) := by
  rintro _ ⟨⟩
  exact h

theorem MovesBy.fault {bs : List Part} (r : Fault) : MovesBy bs s (.fault r) := by
  rintro _ ⟨⟩

theorem MovesBy.unlessHeld {bs : List Part} {out : Out} (h : MovesBy bs s out) : MovesBy bs s (s.unlessHeld out) := by
  unfold State.unlessHeld
  split
  · exact .next (.refl s)
  · exact h

/-! ### Events -/

theorem moves_setSticky {bs : List Part} {f : Sticky} (h : FlagsStay s (s.setSticky f)) : Moves bs s (s.setSticky f) :=
  .one (.raise _ h) (by simp)

theorem moves_setAccess {bs : List Part} (s : State) : Moves bs s s.setAccess :=
  moves_setSticky (by simp [FlagsStay])

theorem moves_setXunder {bs : List Part} (s : State) : Moves bs s s.setXunder :=
  moves_setSticky (by simp [FlagsStay])

theorem moves_setXover {bs : List Part} (s : State) : Moves bs s s.setXover :=
  moves_setSticky (by simp [FlagsStay])

theorem moves_outcome {bs : List Part} (hb : .port ∈ bs) (s : State) (code : BitVec 4) (r : Reason) :
    Moves bs s (s.outcome code r) :=
  .one (.port { s.hpi with code := code, reason := r } id) (by simpa using hb)

/-! ### Requests -/

theorem moves_refuse {bs : List Part} (hb : .port ∈ bs) (s : State) (code : BitVec 4) (r : Reason) :
    Moves bs s (s.refuse code r) :=
  (moves_outcome hb s code r).trans (moves_setSticky (by simp [FlagsStay]))

/-- A request is refused, or accepted with its effect. -/
theorem MovesBy.request {bs : List Part} {code : BitVec 4} {check : State → Option Reason} {act : State → State}
    (hb : .port ∈ bs) (h : s.sweeping = false → check s = none → Moves bs s (act s)) :
    MovesBy bs s (s.unlessHeld (.next (s.request code check act))) := by
  refine .unlessHeld (.next ?_)
  rcases s.request_cases code check act with ⟨-, he⟩ | ⟨-, r, -, he⟩ | ⟨hs, hc, he⟩
  · rw [he]; exact moves_refuse hb ..
  · rw [he]; exact moves_refuse hb ..
  · rw [he]; exact (h hs hc).trans (moves_outcome hb ..)

theorem moves_armEffect (hs : s.sweeping = false) (hc : armRefusal s = none) : Moves (touched .arm) s (armEffect s) := by
  unfold armEffect
  split
  · next n hn => exact .one (.arm n hs hc hn) (by simp [touched])
  · exact .refl s

theorem moves_abortEffect (s : State) : Moves (touched .abort) s (abortEffect s) := by
  unfold abortEffect
  split
  · exact .refl s
  · next r hr =>
    split
    · exact .refl s
    · split
      · next hg => exact .one (.engine <| .mark r hr hg) (by simp [touched])
      · exact .one (.engine <| .answer r .aborted r.progress .none (by rw [hr]; rfl)) (by simp [touched])
  · next r hr => exact .one (.engine <| .answer r .aborted r.progress .none (by rw [hr]; rfl)) (by simp [touched])

/-- FLUSH answers the queued commands one by one. -/
theorem moves_flush :
    ∀ (queue : List Staged) (s : State), s.cq.queue = queue → Moves (touched .flush) s (queue.foldl flushOne s)
  | [], s, _ => .refl s
  | c :: rest, s, hq =>
    (Moves.one (.flushOne c rest hq) (by simp [touched])).trans
      (moves_flush rest (flushOne s c) (by simp [flushOne, hq]))

theorem moves_popEffect (hc : popRefusal s = none) : Moves (touched .pop) s (popEffect s) := by
  cases hq : s.rq with
  | nil => simp [popRefusal, headEntry, hq] at hc
  | cons p rest =>
    cases p with
    | posted e => exact .one (.pop e rest hq) (by simp [touched])
    | pending => simp [popRefusal, headEntry, hq] at hc

theorem moves_rlsEffect {n : BitVec 12} (hs : s.sweeping = false) (hc : rlsRefusal n s = none) :
    Moves (touched (.rls n)) s (rlsEffect n s) := by
  unfold rlsRefusal at hc
  unfold rlsEffect
  cases hm : recordOf n with
  | none => exact .refl s
  | some m =>
    simp only [hm] at hc ⊢
    split at hc
    · cases hc
    · cases hc
    · next hsealed =>
      split at hc
      · next hpins =>
        split
        · next ha => exact .one (.resume m hs hsealed hpins ha) (by simp [touched])
        · exact .one (.release m hs hsealed hpins) (by simp [touched])
      · cases hc

/-- The write in service is the store of a word, or nothing. -/
theorem moves_finishWrite (s : State) : Moves (touched .srst) s (finishWrite s) := by
  unfold finishWrite
  split
  · split
    · split
      · next ha => exact .one (.store _ _ (Coord.addr_lt ha)) (by simp [touched])
      · exact .refl s
    · exact .refl s
  · exact .refl s

/-! ### The acquisition path -/

theorem moves_setGap {bs : List Part} (hb : .rtb ∈ bs) (s : State) : Moves bs s s.setGap := by
  unfold State.setGap
  split
  · next n hn => exact .one (.gap n hn) (by simpa using hb)
  · exact .refl s

theorem moves_scanEvent (hr : s.timerRunning = true) : Moves (touched .timerExpiry) s s.scanEvent := by
  unfold State.scanEvent
  split
  · exact .one (.scanStart hr) (by simp [touched])
  · exact ((Moves.one .drop (by simp [touched])).trans (moves_setSticky (by simp [FlagsStay]))).trans
      (moves_setGap (by simp [touched]) _)

theorem execTimerExpiry_moves (s : State) : MovesBy (touched .timerExpiry) s (execTimerExpiry s) := by
  refine .unlessHeld (.next ?_)
  split
  · next h =>
    have hr : s.timerRunning = true := by simp only [State.ticksCount, Bool.and_eq_true] at h; exact h.1
    have hr' : s.scanEvent.promote.timerRunning = true := by
      rw [← hr]; unfold State.timerRunning State.scanEvent; (repeat' split) <;> simp
    exact ((moves_scanEvent hr).then .promote (by simp [touched])).then (.reload hr') (by simp [touched])
  · exact .refl s

theorem execScanEdge_moves (level : Bool) (s : State) : MovesBy (touched (.scanEdge level)) s (execScanEdge level s) := by
  refine .unlessHeld (.next ?_)
  have hline : Moves (touched .timerExpiry) s { s with stm := { s.stm with scan := level } } :=
    .one (.lines s.stm.gate level) (by simp [touched])
  split
  · next h =>
    simp only [Bool.and_eq_true] at h
    obtain ⟨⟨-, hr⟩, -⟩ := h
    exact (hline.trans (moves_scanEvent hr)).then .promote (by simp [touched])
  · exact hline

theorem moves_present {c : Converting} {w : Word} (hc : s.cnv.scan = .converting c)
    (hl : s.acq.cfg.listLength ≤ c.buffer.length + 1) (codes : Vector Code 8) :
    Moves (touched (.slotEnd codes)) s (present (c.buffer ++ [w]) s) := by
  unfold present
  cases hb : s.blocked with
  | false => exact .one (.present c w hc hl hb) (by simp [touched])
  | true =>
    exact (((Moves.one .drop (by simp [touched])).then .scanEnd (by simp [touched])).trans
      (moves_setSticky (f := { s.evu.sticky with blocked := true }) (by simp [FlagsStay]))).trans (moves_setGap (by simp [touched]) _)

theorem execSlotEnd_moves (codes : Vector Code 8) (s : State) : MovesBy (touched (.slotEnd codes)) s (execSlotEnd codes s) := by
  refine .unlessHeld ?_
  split
  · next c hc =>
    split
    · refine .next ?_
      split
      · next hl => exact .one (.nextSlot c _ hc (by simpa using hl)) (by simp [touched])
      · next hl => exact moves_present hc (by simpa using hl) codes
    · exact .next (.refl s)
  · exact .next (.refl s)

theorem execRowCommit_moves (s : State) : MovesBy (touched .rowCommit) s (execRowCommit s) := by
  refine .unlessHeld ?_
  split
  · next row hp =>
    split
    · next h =>
      simp only [Bool.and_eq_true, Bool.not_eq_true'] at h
      obtain ⟨⟨hr, hs⟩, -⟩ := h
      split
      · next hw => exact .next (.one (.commit row hp hr hs hw) (by simp [touched]))
      · exact .fault _
    · exact .next (.refl s)
  · exact .next (.refl s)

/-! ### The block engine -/

theorem MovesBy.onElement {bs : List Part} {sel : Staged → Bool} {f : Running → State → Out}
    (h : ∀ r, s.ble = .run r → sel r.cmd = true → MovesBy bs s (f r s)) : MovesBy bs s (s.onElement sel f) := by
  rcases s.onElement_cases sel f with he | ⟨r, hr, hsel, -, he⟩
  · rw [he]; exact .next (.refl s)
  · rw [he]; exact h r hr hsel

theorem execTake_moves (s : State) : MovesBy (touched .take) s (execTake s) := by
  refine .unlessHeld ?_
  split
  · next c rest hb hq =>
    refine .next ?_
    unfold takeHead
    dsimp only
    split
    · exact .one (.ringBusy c rest hb hq) (by simp [touched])
    · next h =>
      refine .one (.start c rest hb hq ?_) (by simp [touched])
      cases hi : s.acqIdle with
      | true => exact .inl rfl
      | false =>
        rw [show State.acqIdle _ = s.acqIdle from rfl, hi] at h
        exact .inr (by simpa using h)
  · exact .next (.refl s)

/-- DONE is the answer once every element is complete. -/
theorem doneAnswer_none {r : Running} {d : Detail} (h : r.doneAnswer d = none) : r.progress < r.cmd.total := by
  unfold Running.doneAnswer at h
  split at h
  · cases h
  · omega

theorem moveWrite_moves {op : MoveOp} {r r' : Running} (a b : Word) (hb : s.ble = .run r) (hk : r.cmd.kind = some .move)
    (hr : ∃ reads busy, r' = { r with reads := reads, busy := busy }) :
    MovesBy (touched .fill) s (moveWrite op a b r' s) := by
  obtain ⟨reads, busy, rfl⟩ := hr
  unfold moveWrite
  split
  · exact .fault _
  · next k hk' =>
    exact .next ((Moves.one (.store k _ (Coord.addr_lt hk')) (by simp [touched])).then
      (.engine <| .element r _ _ hb (by simp [hk]) rfl rfl rfl rfl fun h => .inl (doneAnswer_none h)) (by simp [touched]))

theorem moveRest_moves {op : MoveOp} {r r' : Running} (a : Word) (hb : s.ble = .run r) (hk : r.cmd.kind = some .move)
    (ho : r.cmd.op = some op) (hr : ∃ reads busy, r' = { r with reads := reads, busy := busy }) :
    MovesBy (touched .fill) s (moveRest op a r' s) := by
  unfold moveRest
  split
  · exact moveWrite_moves a a hb hk hr
  · next hop =>
    obtain ⟨reads, busy, rfl⟩ := hr
    split
    · exact .fault _
    · unfold State.between
      split
      · refine .next (.one (.engine <| .wait r _ hb hk (by simp) (by simp) fun h => ?_) (by simp [touched]))
        rw [ho] at h
        exact absurd (Option.some.inj h) hop
      · exact moveWrite_moves a _ hb hk ⟨_, _, rfl⟩

theorem moveElement_moves {op : MoveOp} {r : Running} (hb : s.ble = .run r) (hk : r.cmd.kind = some .move)
    (ho : r.cmd.op = some op) : MovesBy (touched .fill) s (moveElement op r s) := by
  unfold moveElement
  split
  · split
    · exact .fault _
    · split
      · exact .next (.one (.engine <| .element r _ _ hb (by simp [hk]) rfl rfl rfl rfl fun h => .inl (doneAnswer_none h)) (by simp [touched]))
      · unfold State.between
        split
        · exact .next (.one (.engine <| .wait r _ hb hk (by simp) (by simp) (by simp)) (by simp [touched]))
        · exact moveRest_moves _ hb hk ho ⟨_, _, rfl⟩
  · exact moveRest_moves _ hb hk ho ⟨r.reads, r.busy, rfl⟩
  · exact moveWrite_moves _ _ hb hk ⟨r.reads, r.busy, rfl⟩

theorem execMove_moves (op : MoveOp) (s : State) :
    MovesBy (touched .fill) s (s.onElement (Staged.isMove op) (moveElement op)) :=
  .onElement fun r hb hsel => by
    simp only [Staged.isMove, Bool.and_eq_true, beq_iff_eq] at hsel
    exact moveElement_moves hb hsel.1 hsel.2

theorem execFill_moves (s : State) : MovesBy (touched .fill) s (execFill s) :=
  .onElement fun r hb hsel => by
    have hk : r.cmd.kind = some .fill := by simpa [Staged.isKind] using hsel
    unfold fillElement
    split
    · exact .fault _
    · next a ha =>
      exact .next ((Moves.one (.store a _ (Coord.addr_lt ha)) (by simp [touched])).then
        (.engine <| .element r _ _ hb (by simp [hk]) rfl rfl rfl rfl fun h => .inl (doneAnswer_none h)) (by simp [touched]))

theorem execSrch_moves (cond : Cond) (s : State) :
    MovesBy (touched .rduc) s (s.onElement (Staged.isSrch cond) (srchElement cond)) :=
  .onElement fun r hb hsel => by
    have hk : r.cmd.kind = some .srch := by
      simp only [Staged.isSrch, Bool.and_eq_true, beq_iff_eq] at hsel
      exact hsel.1
    unfold srchElement
    split
    · exact .fault _
    · refine .next (.one (.engine <| .element r _ _ hb (by simp [hk]) rfl rfl rfl rfl fun h => .inr ?_) (by simp [touched]))
      unfold srchAnswer at h
      split_ifs at h
      omega

theorem execRduc_moves (s : State) : MovesBy (touched .rduc) s (execRduc s) :=
  .onElement fun r hb hsel => by
    have hk : r.cmd.kind = some .rduc := by simpa [Staged.isKind] using hsel
    unfold rducElement
    split
    · exact .fault _
    · exact .next (.one (.engine <| .element r _ _ hb (by simp [hk]) rfl rfl rfl rfl fun h => .inl (doneAnswer_none h)) (by simp [touched]))

theorem execXrd_moves (s : State) : MovesBy (touched .xrd) s (execXrd s) :=
  .onElement fun r hb hsel => by
    have hk : r.cmd.kind = some .xrd := by simpa [Staged.isKind] using hsel
    unfold xrdElement
    split
    · next h =>
      split
      · exact .fault _
      · exact .next (.one (.engine <| .read r _ hb hk h.1 h.2) (by simp [touched]))
    · exact .next (.refl s)

theorem execXwr_moves (s : State) : MovesBy (touched .xwr) s (execXwr s) :=
  .onElement fun r hb hsel => by
    have hk : r.cmd.kind = some .xwr := by simpa [Staged.isKind] using hsel
    unfold xwrElement
    split
    · exact .next (.refl s)
    · next w rest hw =>
      split
      · exact .fault _
      · next b hb' =>
        exact .next ((Moves.one (.store b w (Coord.addr_lt hb')) (by simp [touched])).then (.engine <| .write r w rest hb hk hw) (by simp [touched]))

theorem execTransferTimeout_moves (s : State) : MovesBy (touched .transferTimeout) s (execTransferTimeout s) := by
  refine .unlessHeld ?_
  split
  · next r _ hb _ => exact .next (.one (.engine <| .answer r .timeout r.progress .none (by rw [hb]; rfl)) (by simp [touched]))
  · exact .next (.refl s)

/-! ### Bus accesses -/

theorem moves_voidRead (s : State) : Moves (touched .xdataRead) s (voidRead s) :=
  (((moves_setXunder s).then (.last voidWord) (by simp [touched])).then .touch (by simp [touched])).then (.give _) (by simp)

theorem moves_readXdata (s : State) : Moves (touched .xdataRead) s (readXdata s) := by
  unfold readXdata
  split
  · next r hr =>
    split
    · next hk =>
      split
      · next w rest hw => exact (Moves.one (.engine <| .word r w rest hr hk hw) (by simp [touched])).then (.give _) (by simp)
      · exact ((moves_setXunder s).then .touch (by simp [touched])).then (.give _) (by simp)
    · exact moves_voidRead s
  · exact moves_voidRead s

theorem moves_dropWrite (w : Word) (s : State) : Moves (touched (.xdataWrite w)) s (dropWrite s) :=
  (moves_setXover s).then .touch (by simp [touched])

theorem moves_writeXdata (w : Word) (s : State) : Moves (touched (.xdataWrite w)) s (writeXdata w s) := by
  unfold writeXdata
  split
  · next r hr =>
    split
    · next h => exact .one (.engine <| .feed r w hr h.1 h.2) (by simp [touched])
    · exact moves_dropWrite w s
  · exact moves_dropWrite w s

/-- Every index that a table pointer can take lies in its table (R166). -/
theorem TableName.size_pos (table : TableName) : 0 < table.size := by
  cases table <;> decide

theorem moves_writeTptr (w : Word) (s : State) : Moves (touched (.tptrWrite w)) s (writeTptr w s) :=
  .one (.port _ fun _ => Nat.mod_lt _ (TableName.size_pos _)) (by simp [touched])

theorem moves_advance {bs : List Part} (hb : .port ∈ bs) (s : State) : Moves bs s s.advance := by
  unfold State.advance
  split
  · exact .one (.port { s.hpi with index := (s.hpi.index + 1) % s.hpi.table.size } fun _ =>
      Nat.mod_lt _ (TableName.size_pos _)) (by simpa using hb)
  · exact .refl s

theorem moves_readTdata (s : State) : Moves (touched .tdataRead) s (readTdata s) := by
  have hgive : Moves (touched .tdataRead) s (s.give (s.tableWord s.hpi.table s.hpi.index)) := .one (.give _) (by simp)
  refine (hgive.trans ?_).trans (moves_advance (by simp [touched]) _)
  unfold State.capture
  split
  · exact .one (.hold _) (by simp)
  · exact .refl _

/-- The owner of the named table writes a word that it accepts. -/
theorem moves_writeTable {w : Word} (h : writeTable s w = some u) : Moves (touched (.tdataWrite w)) s u := by
  unfold writeTable writeScan writeAcq at h
  split at h
  · split at h
    · split at h
      · next hi =>
        obtain ⟨d, -, rfl⟩ := Option.map_eq_some_iff.mp h
        exact .one (.slots _ hi) (by simp [touched])
      · cases h
    · cases h
  · split at h
    · next hu =>
      obtain ⟨c, hc, rfl⟩ := Option.map_eq_some_iff.mp h
      exact .one (.table _ w c hu hc) (by simp [touched])
    · cases h
  · cases h
  · cases h

theorem moves_writeTdata (w : Word) (s : State) : Moves (touched (.tdataWrite w)) s (writeTdata w s) := by
  refine Moves.trans ?_ (moves_advance (by simp [touched]) _)
  cases h : writeTable s w with
  | none => exact moves_setAccess s
  | some u => exact moves_writeTable h

/-- A window word without rows of its own: a staging word, an unassigned word, or none (R164). -/
theorem moves_windowWrite {offset : BitVec 5} (h : PlainOffset offset = true) (w : Word) (s : State) :
    Moves (touched (.windowWrite offset w)) s (windowWrite offset w s) := by
  have hne : offset ≠ 0x00#5 ∧ offset ≠ 0x02#5 ∧ offset ≠ 0x03#5 ∧ offset ≠ 0x04#5 ∧ offset ≠ 0x05#5 ∧
      offset ≠ 0x06#5 := by
    revert offset; decide
  obtain ⟨h0, h2, h3, h4, h5, h6⟩ := hne
  simp only [windowWrite, h0, h2, h3, h4, h5, h6, if_false]
  split
  · exact .refl s
  split
  · exact moves_setAccess s
  split
  · exact .one (.stage _) (by simp [touched])
  split
  · exact .refl s
  · exact moves_setAccess s

/-! ### Every command -/

/-- A command makes moves of the parts that its row touches. -/
theorem exec_moves {c : Instr} (hw : c.wellFormed = true) : MovesBy (touched c) s (exec c s) := by
  cases c with
  | powerOnReset held gate edges => exact .next (.one (.powerOn held gate edges.scan edges.trig) (by simp [touched]))
  | initSweepEnd =>
    refine .unlessHeld (.next ?_)
    split
    · exact (Moves.one .sweepEnd (by simp [touched])).trans
        (moves_setSticky (f := { s.evu.sticky with init := true }) (by simp [FlagsStay]))
    · exact .refl s
  | srst => exact .unlessHeld (.next ((moves_finishWrite s).then .softReset (by simp [touched])))
  | arm => exact .request (by simp [touched]) moves_armEffect
  | stop => exact .request (by simp [touched]) fun _ _ => .one .stop (by simp [touched])
  | trig => exact .request (by simp [touched]) fun _ hc => .one (.latchHost hc) (by simp [touched])
  | submit => exact .request (by simp [touched]) fun hs hc => .one (.submit hs hc) (by simp [touched])
  | abort => exact .request (by simp [touched]) fun _ _ => moves_abortEffect s
  | flush => exact .request (by simp [touched]) fun _ _ => moves_flush s.cq.queue s rfl
  | pop => exact .request (by simp [touched]) fun _ hc => moves_popEffect hc
  | rls n => exact .request (by simp [touched]) moves_rlsEffect
  | badCodeRequest code =>
    refine .unlessHeld (.next ?_)
    rw [HostPortMoves.requestOf_badCode hw]
    show Moves _ s (badCodeState code s)
    rw [HostPortMoves.badCodeState_eq]
    exact moves_refuse (by simp [touched]) ..
  | timerExpiry => exact execTimerExpiry_moves s
  | scanEdge level => exact execScanEdge_moves level s
  | gateChange level => exact .unlessHeld (.next (.one (.lines level s.stm.scan) (by simp [touched])))
  | trigEdge level =>
    refine .unlessHeld (.next (.one (.latchLine level _ fun h => ?_) (by simp [touched])))
    simpa only [Bool.or_eq_true, Bool.and_eq_true, and_assoc] using (by
      simp only [Bool.or_eq_true, Bool.and_eq_true] at h
      exact h.imp_right fun h => ⟨h.1.2, h.2⟩)
  | slotEnd codes => exact execSlotEnd_moves codes s
  | rowCommit => exact execRowCommit_moves s
  | take => exact execTake_moves s
  | moveCopy | moveAdds | moveSubs | moveMin | moveMax | moveMean => exact execMove_moves _ s
  | fill => exact execFill_moves s
  | srchAbove | srchBelow | srchRise | srchFall | srchFlagged | srchMarked | srchVoided => exact execSrch_moves _ s
  | rduc => exact execRduc_moves s
  | xrd => exact execXrd_moves s
  | xwr => exact execXwr_moves s
  | xdataRead =>
    refine .next ?_
    split
    · exact .one (.give _) (by simp)
    · exact moves_readXdata s
  | xdataWrite w => exact .unlessHeld (.next (moves_writeXdata w s))
  | transferTimeout => exact execTransferTimeout_moves s
  | tptrWrite w => exact .unlessHeld (.next (moves_writeTptr w s))
  | tdataRead =>
    refine .next ?_
    split
    · exact .one (.give _) (by simp)
    · exact moves_readTdata s
  | tdataWrite w => exact .unlessHeld (.next (moves_writeTdata w s))
  | eventsWrite w => exact .unlessHeld (.next (.one (.clear _) (by simp [touched])))
  | enablesWrite w => exact .unlessHeld (.next (.one (.raise _ (.of_eq rfl)) (by simp)))
  | windowWrite offset w => exact .unlessHeld (.next (moves_windowWrite hw w s))

end Sys2Proof.Machine.Steps
end

section
/-! SUPPORT. What the larger moves come to, the engine's and the row commit's, and what every move leaves alone. -/

namespace Sys2Proof.Machine.Steps

variable {s t u : State}

/-! ## What the engine's moves come to -/

/-- The running command `r` goes on in RUN or XWAIT, or it is answered; beside the result queue, the pins and the engine
only XF changes. -/
inductive EngineGoes (s : State) (r : Running) : State → Prop
  | on (e : Engine) (x : TransferFifo) (he : e.running = some r) : EngineGoes s r { s with ble := e, xf := x }
  | answered (st : Status) (p : Nat) (d : Detail) (x : TransferFifo) :
    EngineGoes s r { s.post r.cmd st p d with xf := x }

theorem endElement_goes (s : State) (r : Running) (answer : Option (Status × Detail)) :
    EngineGoes s r (s.endElement r answer) := by
  unfold State.endElement
  split
  · exact .answered .aborted r.progress .none _
  · split
    · exact .answered _ _ _ s.xf
    · exact .on (.run r) s.xf rfl

theorem afterRead_goes (s : State) (r : Running) (words : List Word) : EngineGoes s r (afterRead s r words) := by
  unfold afterRead
  split
  · exact .answered .aborted r.progress .none _
  · split
    · exact .on (.xwait r) _ rfl
    · exact .on (.run r) _ rfl

theorem afterWrite_goes (s : State) (r : Running) (words : List Word) : EngineGoes s r (afterWrite s r words) := by
  unfold afterWrite
  split
  · exact .answered .aborted r.progress .none _
  · split
    · exact .answered .done r.progress .none _
    · split
      · exact .on (.xwait r) _ rfl
      · exact .on (.run r) _ rfl

theorem afterTake_goes (s : State) (r : Running) (w : Word) (words : List Word) :
    EngineGoes s r (afterTake { s with xf := { s.xf with last := w } } r words) := by
  unfold afterTake
  split
  · exact .answered .done r.progress .none _
  · split
    · exact .on (.run r) _ rfl
    · exact .on (.xwait r) _ rfl

theorem running_run {r : Running} (h : s.ble = .run r) : s.ble.running = some r := by
  rw [h]; rfl

/-- Every move of the engine is of the command that it holds. -/
theorem EngineMove.goes (h : EngineMove s t) :
    ∃ r r', s.ble.running = some r ∧ r'.cmd = r.cmd ∧ EngineGoes s r' t := by
  cases h with
  | mark r hb => exact ⟨r, { r with aborting := true }, running_run hb, rfl, .on (.run _) s.xf rfl⟩
  | answer r st p d hr => exact ⟨r, r, hr, rfl, .answered st p d _⟩
  | serve r hb => exact ⟨r, { r with busy := true }, running_run hb, rfl, .on (.run _) s.xf rfl⟩
  | wait r reads hb =>
    exact ⟨r, { r with reads := reads, busy := false }, running_run hb, rfl, .on (.run _) s.xf rfl⟩
  | element r r' _ hb _ hcmd => exact ⟨r, r', running_run hb, hcmd, endElement_goes ..⟩
  | read r _ hb => exact ⟨r, _, running_run hb, by rfl, afterRead_goes ..⟩
  | write r _ _ hb => exact ⟨r, _, running_run hb, by rfl, afterWrite_goes ..⟩
  | word r _ _ hr => exact ⟨r, _, hr, by rfl, afterTake_goes ..⟩
  | feed r _ hr => exact ⟨r, r, hr, rfl, .on (.run r) _ rfl⟩

/-! ## What a row commit comes to -/

/-- Descriptor and ACQ state after a commit that leaves the record open (R56 to R59). -/
inductive Grown (s : State) (row : List Word) (n : Fin 8) : Descriptor → AcqState → Prop
  | pre (hs : s.acq.state = .pre n) (ht : triggerTaken s row = false) :
    Grown s row n { s.rtb.recs[n] with length := s.rtb.recs[n].length + 1 }
      (if s.rtb.recs[n].length + 1 = s.acq.cfg.preCount then .waittrig n else .pre n)
  | wait (hs : s.acq.state = .waittrig n) (ht : triggerTaken s row = false) :
    Grown s row n
      { s.rtb.recs[n] with
        start :=
          if s.acq.cfg.preCount = 0 then s.acq.cfg.succ s.acq.writer else s.acq.cfg.succ s.rtb.recs[n].start }
      (.waittrig n)
  | post (hs : s.acq.state = .post n) (hp : s.rtb.recs[n].post + 1 ≠ s.acq.cfg.postCount) :
    Grown s row n { s.rtb.recs[n] with length := s.rtb.recs[n].length + 1, post := s.rtb.recs[n].post + 1 } (.post n)
  | trigger (early : Bool) (hs : s.acq.state = .pre n ∨ s.acq.state = .waittrig n) (ht : triggerTaken s row = true)
      (hp : s.acq.cfg.postCount ≠ 0) :
    Grown s row n (s.rtb.recs[n].triggered s.acq.committed (firing s row) early) (.post n)

/-- Descriptor after a commit that brings the record's last row, before it is sealed (R58 to R60). -/
inductive Full (s : State) (row : List Word) (n : Fin 8) : Descriptor → Prop
  | post (hs : s.acq.state = .post n) (hp : s.rtb.recs[n].post + 1 = s.acq.cfg.postCount) :
    Full s row n { s.rtb.recs[n] with length := s.rtb.recs[n].length + 1, post := s.rtb.recs[n].post + 1 }
  | trigger (early : Bool) (hs : s.acq.state = .pre n ∨ s.acq.state = .waittrig n) (ht : triggerTaken s row = true)
      (hp : s.acq.cfg.postCount = 0) :
    Full s row n (s.rtb.recs[n].triggered s.acq.committed (firing s row) early)

/-- What follows a seal (R60, R61). -/
inductive Continued (s : State) : State → Prop
  | idle : s.acq.cfg.rearm = false → Continued s ((s.halt .idle).setSticky { s.evu.sticky with acqdone := true })
  | again (k : Fin 8) (hk : s.lowestFree = some k) : Continued s (s.allocate k)
  | starved (hk : s.lowestFree = none) : Continued s ((s.halt .starved).setSticky { s.evu.sticky with starved := true })

theorem afterSeal_continued (s : State) : Continued s s.afterSeal := by
  unfold State.afterSeal
  split
  · split
    · next k hk => exact .again k hk
    · next hk => exact .starved hk
  · next h => exact .idle (by simpa using h)

/-- What a commit leaves: the record open and grown, or sealed with what follows it. -/
inductive Committed (s : State) (row : List Word) (n : Fin 8) : State → Prop
  | grown (d : Descriptor) (st : AcqState) (e : EventUnit) (hd : Grown s row n d st)
      (he : FlagsStay s { s with evu := e }) :
    Committed s row n
      { (commitRow s row).setRec n d with acq := { (commitRow s row).acq with state := st }, evu := e }
  | sealed {v : State} (d : Descriptor) (f : Sticky) (hd : Full s row n d) (hf : FlagsStay s (s.setSticky f))
      (hv : Continued ((((commitRow s row).setRec n d).setSticky f).sealRec n false) v) :
    Committed s row n v

/-- A commit in PRE, with the ACQ state written out. -/
theorem growPre_eq {n : Fin 8} (hs : s.acq.state = .pre n) :
    growPre s n =
      { s.setRec n { s.rtb.recs[n] with length := s.rtb.recs[n].length + 1 } with
        acq :=
          { s.acq with
            state := if s.rtb.recs[n].length + 1 = s.acq.cfg.preCount then .waittrig n else .pre n } } := by
  unfold growPre
  dsimp only
  split
  · rfl
  · rw [← hs]; rfl

theorem growPre_committed {row : List Word} {n : Fin 8} (hs : s.acq.state = .pre n) (ht : triggerTaken s row = false) :
    Committed s row n (growPre (commitRow s row) n) := by
  rw [growPre_eq (s := commitRow s row) hs]
  exact .grown _ _ s.evu (.pre hs ht) (.of_eq rfl)

theorem slideWait_committed {row : List Word} {n : Fin 8} (hs : s.acq.state = .waittrig n)
    (ht : triggerTaken s row = false) : Committed s row n (slideWait (commitRow s row) n) := by
  have h := Committed.grown (s := s) _ _ s.evu (.wait hs ht) (.of_eq rfl)
  rw [← hs] at h
  exact h

/-- A commit in POST short of the post count, with the ACQ state written out. -/
theorem growPost_grows {n : Fin 8} (hs : s.acq.state = .post n) (hp : s.rtb.recs[n].post + 1 ≠ s.acq.cfg.postCount) :
    growPost s n =
      { s.setRec n { s.rtb.recs[n] with length := s.rtb.recs[n].length + 1, post := s.rtb.recs[n].post + 1 } with
        acq := { s.acq with state := .post n } } := by
  rw [← hs]
  exact if_neg hp

theorem growPost_committed {row : List Word} {n : Fin 8} (hs : s.acq.state = .post n) :
    Committed s row n (growPost (commitRow s row) n) := by
  by_cases hp : s.rtb.recs[n].post + 1 = s.acq.cfg.postCount
  · have e : ∀ u : State, u.setSticky u.evu.sticky = u := fun _ => rfl
    rw [growPost_seals (commitRow s row) n hp, ← e ((commitRow s row).setRec n _)]
    exact .sealed _ s.evu.sticky (.post hs hp) (.of_eq rfl) (afterSeal_continued _)
  · rw [growPost_grows (s := commitRow s row) hs hp]
    exact .grown _ _ s.evu (.post hs hp) (.of_eq rfl)

/-- A trigger row with a post count above 0. -/
theorem takeTrigger_opens (n : Fin 8) (seq : BitVec 32) (causes : Sources) (early : Bool) (hp : s.acq.cfg.postCount ≠ 0) :
    takeTrigger s n seq causes early =
      { (s.setRec n (s.rtb.recs[n].triggered seq causes early)) with
        acq := { s.acq with state := .post n }
        evu := { s.evu with sticky := { s.evu.sticky with trigger := true } } } :=
  if_neg hp

theorem takeTrigger_committed {row : List Word} {n : Fin 8} (early : Bool)
    (hs : s.acq.state = .pre n ∨ s.acq.state = .waittrig n) (ht : triggerTaken s row = true) :
    Committed s row n (takeTrigger (commitRow s row) n s.acq.committed (firing s row) early) := by
  by_cases hp : s.acq.cfg.postCount = 0
  · rw [takeTrigger_seals (commitRow s row) n _ _ _ hp]
    exact .sealed _ _ (.trigger early hs ht hp) (by simp [FlagsStay]) (afterSeal_continued _)
  · rw [takeTrigger_opens (s := commitRow s row) n _ _ _ hp]
    exact .grown _ _ _ (.trigger early hs ht hp) (by simp [FlagsStay])

/-- Step 5 of a commit, by the ACQ state (R55). -/
theorem commitRecord_committed (row : List Word) {n : Fin 8} (ho : s.acq.state.openRec = some n) :
    Committed s row n (commitRecord s row) := by
  unfold commitRecord
  cases hs : s.acq.state with
  | idle => simp [hs, AcqState.openRec] at ho
  | starved => simp [hs, AcqState.openRec] at ho
  | pre m =>
    obtain rfl : m = n := by simpa [hs, AcqState.openRec] using ho
    cases ht : triggerTaken s row with
    | true => simpa using takeTrigger_committed true (.inl hs) ht
    | false => simpa using growPre_committed hs ht
  | waittrig m =>
    obtain rfl : m = n := by simpa [hs, AcqState.openRec] using ho
    cases ht : triggerTaken s row with
    | true => simpa using takeTrigger_committed false (.inr hs) ht
    | false => simpa using slideWait_committed hs ht
  | post m =>
    obtain rfl : m = n := by simpa [hs, AcqState.openRec] using ho
    exact growPost_committed hs

/-- The open record of a running timer. -/
theorem openRec_of_running (hr : s.timerRunning = true) : ∃ n, s.acq.state.openRec = some n :=
  Option.isSome_iff_exists.mp hr

/-! ## The soft reset, block by block -/

@[simp] theorem softReset_sst (s : State) : (softReset s).sst = s.sst := rfl
@[simp] theorem softReset_stm (s : State) : (softReset s).stm = s.stm := rfl
@[simp] theorem softReset_cnv (s : State) : (softReset s).cnv = s.cnv := rfl
@[simp] theorem softReset_acq (s : State) :
    (softReset s).acq = { s.acq with committed := 0#32, holding := 0#16, dropped := 0 } := rfl
@[simp] theorem softReset_tru (s : State) : (softReset s).tru = { s.tru with flagged := false, count := 0 } := rfl
@[simp] theorem softReset_rtb (s : State) : (softReset s).rtb = s.rtb.unpinAll := rfl
@[simp] theorem softReset_cq (s : State) :
    (softReset s).cq = { s.cq with queue := [], tickets := Config.ticketTotal } := rfl
@[simp] theorem softReset_rq (s : State) : (softReset s).rq = [] := rfl
@[simp] theorem softReset_ble (s : State) : (softReset s).ble = .idle := rfl
@[simp] theorem softReset_xf (s : State) : (softReset s).xf = TransferFifo.reset := rfl
@[simp] theorem softReset_evu (s : State) : (softReset s).evu = ⟨Sticky.clear, 0#14⟩ := rfl
@[simp] theorem softReset_hpi (s : State) : (softReset s).hpi = ⟨.scan, 0, false, 1#4, .accepted⟩ := rfl
@[simp] theorem softReset_held (s : State) : (softReset s).held = s.held := rfl
@[simp] theorem softReset_busData (s : State) : (softReset s).busData = s.busData := rfl
@[simp] theorem softReset_pending (s : State) : (softReset s).pending = s.pending := rfl

/-! ## What each move leaves alone -/

theorem FlagsStay.refl (s : State) : FlagsStay s s := .of_eq rfl

theorem Continued.flagsStay (h : Continued s t) : FlagsStay s t := by
  cases h with
  | idle => simp [FlagsStay]
  | again => exact .of_eq rfl
  | starved => simp [FlagsStay]

theorem Committed.flagsStay {row : List Word} {n : Fin 8} (h : Committed s row n t) : FlagsStay s t := by
  cases h with
  | grown d st e hd he => exact he
  | sealed d f hd hf hv =>
    have hseal : FlagsStay (s.setSticky f)
        ((((commitRow s row).setRec n d).setSticky f).sealRec n false) := by simp [FlagsStay]
    exact (hf.trans hseal).trans hv.flagsStay

theorem endRecord_flagsStay (s : State) : FlagsStay s s.endRecord := by
  unfold State.endRecord
  split
  · exact .of_eq rfl
  · exact .of_eq rfl
  · simp [FlagsStay]
  · exact .of_eq rfl

/-- A record that is OPEN is no SEALED one. -/
theorem ne_of_sealed {n m : Fin 8} (hs : RecordsSound s) (ho : s.acq.state.openRec = some m)
    (hn : s.rtb.recs[n].state = .sealed) : n ≠ m := by
  rintro rfl
  have := (hs.1 n).mpr ho
  rw [hn] at this
  cases this

theorem endRecord_sealedStay (hs : RecordsSound s) : SealedStay s s.endRecord := by
  intro n hn
  unfold State.endRecord
  split
  · next m hm => rw [State.freeRec_get, if_neg (ne_of_sealed hs (by rw [hm]; rfl) hn)]
  · next m hm => rw [State.freeRec_get, if_neg (ne_of_sealed hs (by rw [hm]; rfl) hn)]
  · next m hm => rw [State.sealRec_get, if_neg (ne_of_sealed hs (by rw [hm]; rfl) hn)]
  · rfl

/-- A change of the pins alone keeps every other field. -/
theorem SealedStay.of_pins (h : ∀ n : Fin 8, ∃ k, t.rtb.recs[n] = { s.rtb.recs[n] with pins := k }) : SealedStay s t := by
  intro n _
  obtain ⟨k, hk⟩ := h n
  rw [hk]

theorem SealedStay.of_unpin {refs : List (Fin 8)} (h : t.rtb = s.rtb.unpin refs) : SealedStay s t :=
  .of_pins fun n => ⟨_, by rw [h, RecordTable.unpin_get]⟩

/-- A descriptor that was not SEALED can change. -/
theorem SealedStay.of_others {n : Fin 8} (hn : s.rtb.recs[n].state ≠ .sealed)
    (h : ∀ m : Fin 8, m ≠ n → t.rtb.recs[m] = s.rtb.recs[m]) : SealedStay s t := by
  intro m hm
  rw [h m (by rintro rfl; exact hn hm)]

theorem EngineGoes.sealedStay {r : Running} (h : EngineGoes s r t) : SealedStay s t := by
  cases h with
  | on => exact .of_eq rfl
  | answered => exact .of_unpin rfl

/-- A free descriptor taken for a new record was not SEALED. -/
theorem allocate_sealedStay {k : Fin 8} (hk : s.lowestFree = some k) : SealedStay s (s.allocate k) := by
  refine .of_others (n := k) ?_ fun m hm => by rw [State.allocate_get, if_neg hm]
  rw [(State.lowestFree_eq_some.mp hk).1]
  decide

theorem Continued.sealedStay (h : Continued s t) : SealedStay s t := by
  cases h with
  | idle => exact .of_eq rfl
  | again k hk => exact allocate_sealedStay hk
  | starved => exact .of_eq rfl

theorem Committed.sealedStay {row : List Word} {n : Fin 8} (h : Committed s row n t)
    (hn : s.rtb.recs[n].state ≠ .sealed) : SealedStay s t := by
  cases h with
  | grown d st e hd he => exact .of_others hn fun m hm => by rw [State.setRec_get, if_neg hm]; rfl
  | sealed d f hd hf hv =>
    refine SealedStay.trans (.of_others hn fun m hm => ?_) hv.sealedStay
    rw [State.sealRec_get, if_neg hm]
    show ((commitRow s row).setRec n d).rtb.recs[m] = _
    rw [State.setRec_get, if_neg hm]
    rfl

theorem Move.sealedStay {cs : List Part} (h : Move s cs t) (hr : .released ∉ cs) (hs : RecordsSound s) : SealedStay s t := by
  cases h with
  | powerOn | release | resume => simp at hr
  | stop => exact endRecord_sealedStay hs
  | softReset => exact (endRecord_sealedStay hs).trans (.of_pins fun n => ⟨0, RecordTable.unpinAll_get ..⟩)
  | arm n _ _ hn => exact allocate_sealedStay hn
  | submit => exact .of_pins fun n => ⟨_, RecordTable.pin_get ..⟩
  | flushOne => exact .of_unpin rfl
  | ringBusy => exact .of_unpin rfl
  | gap n ho =>
    exact .of_others (n := n) (by rw [(hs.1 n).mpr ho]; decide) fun m hm => by rw [State.setRec_get, if_neg hm]
  | commit row _ hrun =>
    obtain ⟨n, ho⟩ := openRec_of_running hrun
    exact (commitRecord_committed row ho).sealedStay (by rw [(hs.1 n).mpr ho]; decide)
  | start =>
    unfold startCommand
    split <;> exact .of_eq rfl
  | engine h =>
    obtain ⟨r, r', -, -, hgo⟩ := h.goes
    exact hgo.sealedStay
  | touch => exact .of_eq (State.touch_rtb s)
  | table i v c => exact .of_eq (TableWords.acqWritten_keptBut s i c .rtb (by simp))
  | _ => exact .of_eq rfl

end Sys2Proof.Machine.Steps
end

section
namespace Sys2Proof.Machine.Steps
variable {s t u : State}

/-- A row commit leaves the parts alone that it does not write. -/
theorem commitPart_kept {row : List Word} {p : Part} (h : CommitPart (commitRow s row) t) (hf : FlagsStay s t)
    (hp : p ∉ [Part.sst, .stm, .scan, .mode, .writer, .committed, .tru, .rtb, .released]) : p.kept s t := by
  obtain ⟨-, -, hdropped, hcfg, -, hcnv, -, -, hkept⟩ := h
  cases p with
  | slots => rw [Part.kept, hcnv, commitRow_cnv]
  | cfg => rw [Part.kept, hcfg, commitRow_acq]
  | dropped => rw [Part.kept, hdropped, commitRow_acq]
  | flags => exact hf
  | cq => exact Eq.trans (hkept .cq (by simp)) (commitRow_cq s row)
  | rq => exact Eq.trans (hkept .rq (by simp)) (commitRow_rq s row)
  | ble => exact Eq.trans (hkept .ble (by simp)) (commitRow_ble s row)
  | xf => exact Eq.trans (hkept .xf (by simp)) (commitRow_xf s row)
  | port => exact Eq.trans (hkept .hpi (by simp)) (commitRow_hpi s row)
  | pending => exact Eq.trans (hkept .pending (by simp)) (commitRow_pending s row)
  | sst | stm | scan | mode | writer | committed | tru | rtb | released => simp at hp

/-- A write of an ACQ table word leaves the parts alone that it does not write. -/
theorem acqWritten_kept {i : Nat} {c : AcqTable} {p : Part} (hp : p ∉ [Part.stm, .cfg, .writer, .released]) :
    p.kept s (acqWritten s i c) := by
  have hkept := TableWords.acqWritten_keptBut s i c
  cases p with
  | sst => exact hkept .sst (by simp)
  | slots => exact congrArg Converter.slots (hkept .cnv (by simp))
  | scan => exact congrArg Converter.scan (hkept .cnv (by simp))
  | mode | committed | dropped => rw [Part.kept, TableWords.acqWritten_acq]
  | tru => exact hkept .tru (by simp)
  | rtb => exact hkept .rtb (by simp)
  | cq => exact hkept .cq (by simp)
  | rq => exact hkept .rq (by simp)
  | ble => exact hkept .ble (by simp)
  | xf => exact hkept .xf (by simp)
  | flags => exact .of_eq (congrArg EventUnit.sticky (hkept .evu (by simp)))
  | port => exact hkept .hpi (by simp)
  | pending => exact hkept .pending (by simp)
  | stm | cfg | writer | released => simp at hp

/-- The engine's moves leave the other parts alone. -/
theorem EngineGoes.kept {r : Running} {p : Part} (h : EngineGoes s r t)
    (hp : p ∉ [Part.rtb, .rq, .ble, .xf, .released]) : p.kept s t := by
  cases h <;> cases p <;> first | (simp at hp; done) | exact FlagsStay.refl s | rfl

/-- STOP leaves the other parts alone. -/
theorem stopOutcome_kept {p : Part} (hp : p ∉ [Part.stm, .scan, .mode, .tru, .rtb, .released]) :
    p.kept s s.stopOutcome := by
  cases p <;> first | (simp at hp; done) | exact endRecord_flagsStay s | simp [Part.kept]

/-- The soft reset leaves the other parts alone. -/
theorem softReset_kept {p : Part}
    (hp : p ∉ [Part.stm, .scan, .mode, .committed, .dropped, .tru, .rtb, .cq, .rq, .ble, .xf, .flags, .port, .released]) :
    p.kept s (softReset s.stopOutcome) := by
  cases p <;> first | (simp at hp; done) | simp [Part.kept]

/-- A move leaves every part alone that it does not write. -/
theorem Move.kept {cs : List Part} {p : Part} (h : Move s cs t) (hp : p ∉ cs) : p.kept s t := by
  by_cases hrel : p = .released
  · subst hrel
    exact h.sealedStay hp
  cases h with
  | raise e he => cases p <;> first | exact absurd rfl hrel | exact he | rfl
  | stop => exact stopOutcome_kept (by simp_all)
  | softReset => exact softReset_kept (by simp_all)
  | commit row _ hrun =>
    obtain ⟨n, ho⟩ := openRec_of_running hrun
    exact commitPart_kept (commitRecord_part row ho) (commitRecord_committed row ho).flagsStay (by simp_all)
  | start =>
    unfold startCommand
    split <;> cases p <;> first | (simp at hp; done) | exact absurd rfl hrel | exact .refl _
  | ringBusy c rest hb =>
    cases p <;> first | (simp at hp; done) | exact absurd rfl hrel | exact hb.symm | exact .refl _
  | engine h =>
    obtain ⟨r, r', -, -, hgo⟩ := h.goes
    exact hgo.kept (by simp_all)
  | touch => cases p <;> first | (simp at hp; done) | exact absurd rfl hrel | exact .of_eq (by simp) | simp [Part.kept]
  | table i v c => exact acqWritten_kept (by simp_all)
  | _ => cases p <;> first | (simp at hp; done) | exact absurd rfl hrel | exact .refl _

end Sys2Proof.Machine.Steps
end

section
/-! SUPPORT. The moves of any command and of any step, and what the frames of the commands say. -/

namespace Sys2Proof.Machine.Steps

variable {s t u : State}

/-! ## Commands that are no row of their own -/

/-- A write of REQ is the request that it names, the codes that name none included (R170). -/
theorem exec_requestOf (w : Word) (s : State) :
    exec (requestOf w) s = s.unlessHeld (.next (requestWrite (requestOf w) s)) := by
  have hbad : ∀ code : BitVec 4, BadCode code = true →
      exec (.badCodeRequest code) s = s.unlessHeld (.next (requestWrite (.badCodeRequest code) s)) := by
    intro code h
    have hname := HostPortMoves.requestOf_badCode h
    show s.unlessHeld (.next (requestWrite (requestOf (code.setWidth 16)) s)) = _
    rw [hname]
  have hcode : ∀ code : BitVec 4, (∀ k : Nat, 1 ≤ k → k ≤ 9 → code.toNat ≠ k) → BadCode code = true := by decide
  unfold requestOf
  split
  case h_10 h1 h2 h3 h4 h5 h6 h7 h8 h9 =>
    refine hbad _ (hcode _ fun k h1k h9k hk => ?_)
    interval_cases k <;> simp_all
  all_goals rfl

theorem requestOf_wellFormed (w : Word) : (requestOf w).wellFormed = true := by
  have hcode : ∀ code : BitVec 4, (∀ k : Nat, 1 ≤ k → k ≤ 9 → code.toNat ≠ k) → BadCode code = true := by decide
  unfold requestOf
  split
  case h_10 h1 h2 h3 h4 h5 h6 h7 h8 h9 =>
    refine hcode _ fun k h1k h9k hk => ?_
    interval_cases k <;> simp_all
  all_goals rfl

/-- The window words with rows of their own (log 18). -/
theorem exec_windowWrite_row (w : Word) (s : State) :
    exec (.windowWrite 0x00#5 w) s = exec (requestOf w) s ∧ exec (.windowWrite 0x02#5 w) s = exec (.eventsWrite w) s ∧
      exec (.windowWrite 0x03#5 w) s = exec (.enablesWrite w) s ∧ exec (.windowWrite 0x04#5 w) s = exec (.tptrWrite w) s ∧
      exec (.windowWrite 0x05#5 w) s = exec (.tdataWrite w) s ∧ exec (.windowWrite 0x06#5 w) s = exec (.xdataWrite w) s :=
  ⟨(exec_requestOf w s).symm, rfl, rfl, rfl, rfl, rfl⟩

/-- Every term of `Instr` does what a well-formed one does (log 18). -/
theorem exec_eq_wellFormed (c : Instr) : ∃ c' : Instr, c'.wellFormed = true ∧ ∀ s, exec c s = exec c' s := by
  cases hw : c.wellFormed with
  | true => exact ⟨c, hw, fun _ => rfl⟩
  | false =>
    cases c with
    | badCodeRequest code =>
      exact ⟨requestOf (code.setWidth 16), requestOf_wellFormed _, fun s => (exec_requestOf _ s).symm⟩
    | windowWrite offset w =>
      have hoff : offset = 0x00#5 ∨ offset = 0x02#5 ∨ offset = 0x03#5 ∨ offset = 0x04#5 ∨ offset = 0x05#5 ∨
          offset = 0x06#5 := by
        revert hw
        show PlainOffset offset = false → _
        clear w
        revert offset; decide
      rcases hoff with rfl | rfl | rfl | rfl | rfl | rfl
      · exact ⟨requestOf w, requestOf_wellFormed w, fun s => (exec_windowWrite_row w s).1⟩
      · exact ⟨.eventsWrite w, rfl, fun _ => rfl⟩
      · exact ⟨.enablesWrite w, rfl, fun _ => rfl⟩
      · exact ⟨.tptrWrite w, rfl, fun _ => rfl⟩
      · exact ⟨.tdataWrite w, rfl, fun _ => rfl⟩
      · exact ⟨.xdataWrite w, rfl, fun _ => rfl⟩
    | _ => cases hw

/-! ## One part-clock period -/

theorem moves_sweepPeriod {bs : List Part} (hb : .sst ∈ bs) (s : State) :
    Moves bs s { s with sst := (sweepPeriod s).1 } := by
  unfold sweepPeriod
  split
  · split
    · next h => exact .one (.sweepWord h) (by simpa using hb)
    · exact .refl s
  · exact .refl s

theorem moves_timerPeriod {bs : List Part} (hb : .stm ∈ bs) (s : State) :
    Moves bs s { s with stm := (timerPeriod s).1 } := by
  have hpos : 0 < s.acq.cfg.prescaler.num := by cases s.acq.cfg.prescaler <;> decide
  have hsub : [Part.stm] ⊆ bs := by simpa using hb
  unfold timerPeriod
  split
  · next hr =>
    obtain ⟨hr, -⟩ := hr
    split
    · next hp => exact .one (.tick _ s.stm.counter hr hp (.inl rfl)) hsub
    · split
      · exact .one (.tick 0 s.stm.counter hr hpos (.inl rfl)) hsub
      · split
        · exact .one (.tick 0 s.stm.counter hr hpos (.inl rfl)) hsub
        · next hc => exact .one (.tick 0 _ hr hpos (.inr ⟨by omega, rfl⟩)) hsub
  · exact .refl s

/-- A conversion gives a code of 12 bits (R32). -/
theorem Slot.convert_le (slot : Slot) (code : Code) : slot.convert code ≤ 4095 := by
  unfold Slot.convert
  split
  · exact Nat.zero_le _
  · exact Nat.le_of_lt_succ code.isLt

theorem moves_converterPeriod {bs : List Part} (hb : .scan ∈ bs) (s : State) :
    Moves bs s { s with cnv := { s.cnv with scan := (converterPeriod s).1 } } := by
  have hsub : [Part.scan] ⊆ bs := by simpa using hb
  unfold converterPeriod
  split
  · next c hc =>
    split
    · next hl =>
      dsimp only
      split
      · exact .one (.convert c { c with clock := c.clock + 1 } hc rfl (.inl ⟨rfl, rfl⟩)) hsub
      · split
        · next ht =>
          refine .one (.convert c _ hc rfl (.inr ⟨rfl, Nat.add_le_add_left (Slot.convert_le _ _) _, fun i hi => ?_⟩)) hsub
          simpa [hi] using ht
        · exact .refl s
    · exact .refl s
  · exact .refl s

theorem moves_timeoutPeriod {bs : List Part} (hb : .xf ∈ bs) (s : State) :
    Moves bs s { s with xf := { s.xf with timeout := (timeoutPeriod s).1 } } := by
  unfold timeoutPeriod
  split
  · next n hn =>
    split
    · rw [← hn]; exact .refl s
    · next h => exact .one (.timeoutTick n hn (by omega)) (by simpa using hb)
  · next hn => rw [← hn]; exact .refl s

/-- The parts that the block left to itself can write. -/
def idleTouched : List Part := [.sst, .stm, .scan, .rtb, .rq, .ble, .xf, .pending]

/-- One period is the moves of its five blocks, and what falls due is queued. -/
theorem moves_period (s : State) : Moves idleTouched s (period s) := by
  have hstm : Moves idleTouched { s with sst := (sweepPeriod s).1 }
      { s with sst := (sweepPeriod s).1, stm := (timerPeriod s).1 } := moves_timerPeriod (by decide) _
  have hcnv : Moves idleTouched { s with sst := (sweepPeriod s).1, stm := (timerPeriod s).1 }
      { s with
        sst := (sweepPeriod s).1, stm := (timerPeriod s).1, cnv := { s.cnv with scan := (converterPeriod s).1 } } :=
    moves_converterPeriod (by decide) _
  have hxf : Moves idleTouched
      { s with
        sst := (sweepPeriod s).1, stm := (timerPeriod s).1, cnv := { s.cnv with scan := (converterPeriod s).1 } }
      { s with
        sst := (sweepPeriod s).1, stm := (timerPeriod s).1, cnv := { s.cnv with scan := (converterPeriod s).1 }
        xf := { s.xf with timeout := (timeoutPeriod s).1 } } := moves_timeoutPeriod (by decide) _
  have hble : Moves idleTouched
      { s with
        sst := (sweepPeriod s).1, stm := (timerPeriod s).1, cnv := { s.cnv with scan := (converterPeriod s).1 }
        xf := { s.xf with timeout := (timeoutPeriod s).1 } }
      { s with
        sst := (sweepPeriod s).1, stm := (timerPeriod s).1, cnv := { s.cnv with scan := (converterPeriod s).1 }
        xf := { s.xf with timeout := (timeoutPeriod s).1 }, ble := (enginePeriod s).1 } := by
    unfold enginePeriod
    split
    · next r hr =>
      split
      · rw [← hr]; exact .refl _
      · split
        · exact .one (.engine (.serve r hr)) (by decide)
        · rw [← hr]; exact .refl _
    · exact .refl _
  have hmoves := (((moves_sweepPeriod (by decide) s).trans hstm).trans hcnv).trans (hxf.trans hble)
  exact hmoves.then (.model (converterPeriod s).2.1
    ((sweepPeriod s).2 ++ (converterPeriod s).2.2 ++ (timerPeriod s).2 ++ (timeoutPeriod s).2 ++ (enginePeriod s).2))
    (by decide)

theorem moves_idle (s : State) : Moves idleTouched s (idle s) := by
  unfold idle
  split
  · exact .refl s
  · split
    · exact moves_period s
    · exact .one (.model s.conversions s.dueNow) (by decide)

/-- Every step is made of moves. -/
theorem step_moves (h : step s = .next t) : ∃ bs, Moves bs s t := by
  cases hp : s.pending with
  | nil =>
    rw [step_nil hp] at h
    cases h
    exact ⟨_, moves_idle s⟩
  | cons c rest =>
    rw [step_cons hp] at h
    obtain ⟨c', hw, hc⟩ := exec_eq_wellFormed c
    rw [hc] at h
    have hqueue : Moves (.pending :: touched c') s { s with pending := rest } :=
      .one (.model s.conversions rest) (by simp)
    have hexec := exec_moves hw t h
    exact ⟨.pending :: touched c', hqueue.trans (hexec.mono (List.subset_cons_self _ _))⟩

/-- What every move keeps, every step keeps. -/
theorem step_keeps {P : State → Prop} (hP : ∀ {u v : State} {cs : List Part}, Move u cs v → P u → P v)
    (h : step s = .next t) (hs : P s) : P t := by
  obtain ⟨bs, hm⟩ := step_moves h
  exact hm.keeps hP hs

/-! ## The frame of a command -/

theorem Part.kept_refl (p : Part) (s : State) : p.kept s s := by
  cases p <;> first | exact .refl _ | exact fun _ => .of_eq rfl

/-- Frames compose; that no SEALED descriptor is released composes over sound record tables only. -/
theorem Part.kept_trans {p : Part} (hp : p ≠ .released) (h : p.kept s t) (k : p.kept t u) : p.kept s u := by
  cases p with
  | released => exact absurd rfl hp
  | flags => exact h.trans k
  | _ => exact Eq.trans k h

theorem Moves.kept {bs : List Part} {p : Part} (h : Moves bs s t) (hne : p ≠ .released) (hp : p ∉ bs) : p.kept s t := by
  induction h with
  | refl => exact p.kept_refl s
  | tail _ hlast ih =>
    obtain ⟨cs, hsub, hm⟩ := hlast
    exact Part.kept_trans hne ih (hm.kept fun hin => hp (hsub hin))

/-- A command leaves every part alone that its row does not touch. -/
theorem exec_kept {c : Instr} {p : Part} (hw : c.wellFormed = true) (h : exec c s = .next t) (hne : p ≠ .released)
    (hp : p ∉ touched c) : p.kept s t :=
  (exec_moves hw t h).kept hne hp

/-! ## The statements -/

/-- Settles O2: no row of the table touches what waits. -/
theorem commandsLeaveTheQueue : Obligations.CommandsLeaveTheQueue := by
  intro c s t h
  obtain ⟨c', hw, hc⟩ := exec_eq_wellFormed c
  rw [hc] at h
  refine exec_kept (p := .pending) hw h (by decide) ?_
  cases c' <;> simp [touched]

/-- Settles O14: only a write of EVENTS and the resets touch the flags. -/
theorem stickyFlagsStay : Obligations.StickyFlagsStay := by
  intro c s t hw hevents hsrst hpower h
  refine exec_kept (p := .flags) hw h (by decide) ?_
  cases c with
  | eventsWrite w => exact absurd rfl (hevents w)
  | srst => exact absurd rfl hsrst
  | powerOnReset held gate edges => exact absurd rfl (hpower held gate edges)
  | _ => simp [touched]

/-- Settles O16: a command that cannot store does not touch the store. -/
theorem onlyStoresChangeTheSheet : Obligations.OnlyStoresChangeTheSheet := by
  intro c s t hw hstore h
  refine exec_kept (p := .sst) hw h (by decide) ?_
  cases c <;> simp [touched, mayStore] at hstore ⊢

end Sys2Proof.Machine.Steps
end

section
/-! SUPPORT. The invariants of the sheet, the ring, the ranges, the tickets, the latches, the timer and the scan, move by
move. -/

namespace Sys2Proof.Machine.Steps

variable {s t u : State}

/-! ## The sheet and the sweep (R1, R13, R14) -/

theorem commitRecord_sst {row : List Word} {n : Fin 8} (ho : s.acq.state.openRec = some n) :
    (commitRecord s row).sst =
      { s.sst with cells := Sheet.writeRow s.sst.cells s.acq.writer (commitWord row (triggerTaken s row)) } :=
  (commitRecord_part row ho).1.trans (commitRow_sst s row)

theorem Move.sheet {cs : List Part} (h : Move s cs t) (hs : SheetSound s) : SheetSound t := by
  have hframe : Part.sst ∉ cs → SheetSound t := fun hp => by
    have e : t.sst = s.sst := h.kept hp
    rwa [SheetSound, e]
  cases h with
  | powerOn => exact ⟨rfl, Nat.zero_le _⟩
  | sweepWord hpos => exact ⟨Sheet.wf_write (Nat.lt_of_succ_lt hpos) hs.1, hpos.le⟩
  | sweepEnd => exact ⟨rfl, le_rfl⟩
  | store a w ha => exact State.store_sound hs ha w
  | commit row _ hrun _ hw =>
    obtain ⟨n, ho⟩ := openRec_of_running hrun
    have hwf := Sheet.wf_writeRow hs.1 hw (commitWord row (triggerTaken s row))
    simp only [SheetSound, commitRecord_sst ho]
    exact ⟨hwf, hs.2⟩
  | _ => exact hframe (by simp)

/-- In IDLE there is no record to end. -/
theorem endRecord_idle (h : s.acqIdle = true) : s.endRecord = s := by
  rw [TableWords.acqIdle_iff] at h
  simp [State.endRecord, h]

theorem allFree_congr (h : ∀ n : Fin 8, s.rtb.recs[n].state = .free → t.rtb.recs[n].state = .free)
    (hs : s.allFree = true) : t.allFree = true :=
  State.allFree_iff.mpr fun n => h n (State.allFree_iff.mp hs n)

theorem Move.sweep {cs : List Part} (h : Move s cs t) (hs : SweepSound s) : SweepSound t := by
  intro hsw
  have hsame : Part.sst ∉ cs → s.sweeping = true := fun hp => by
    have e : t.sst = s.sst := h.kept hp
    rwa [State.sweeping, e] at hsw
  have hframe : Part.sst ∉ cs → Part.mode ∉ cs → Part.ble ∉ cs → Part.cq ∉ cs → Part.rq ∉ cs → Part.rtb ∉ cs →
      t.acqIdle = true ∧ t.ble = .idle ∧ t.cq.queue = [] ∧ t.rq = [] ∧ t.allFree = true := by
    intro h1 h2 h3 h4 h5 h6
    have e2 : t.acq.state = s.acq.state := h.kept h2
    have e3 : t.ble = s.ble := h.kept h3
    have e4 : t.cq = s.cq := h.kept h4
    have e5 : t.rq = s.rq := h.kept h5
    have e6 : t.rtb = s.rtb := h.kept h6
    rw [State.acqIdle, e2, e3, e4, e5, State.allFree, e6]
    exact hs (hsame h1)
  cases h with
  | powerOn => exact ⟨rfl, rfl, rfl, rfl, by simp [State.allFree_iff, State.powerOn, Descriptor.free]⟩
  | sweepWord hpos => exact hs (by simp only [State.sweeping, decide_eq_true_eq]; omega)
  | sweepEnd => simp [State.sweeping] at hsw
  | store => exact hs hsw
  | softReset =>
    obtain ⟨hidle, -, -, -, hfree⟩ := hs (by simpa [State.sweeping] using hsw)
    refine ⟨by simp [State.acqIdle], rfl, rfl, rfl, allFree_congr (fun n hn => ?_) hfree⟩
    have e : (Machine.softReset s.stopOutcome).rtb = s.rtb.unpinAll := by
      show s.endRecord.rtb.unpinAll = _
      rw [endRecord_idle hidle]
    rw [e, RecordTable.unpinAll_get]
    exact hn
  | stop =>
    obtain ⟨hidle, hble, hq, hrq, hfree⟩ := hs (hsame (by simp))
    refine ⟨by simp [State.acqIdle], by simpa using hble, by simpa using hq, by simpa using hrq,
      allFree_congr (fun n hn => ?_) hfree⟩
    have e : s.stopOutcome.rtb = s.rtb := by
      show s.endRecord.rtb = _
      rw [endRecord_idle hidle]
    rw [e]
    exact hn
  | arm n hn | submit hn | release m hn | resume m hn =>
    rw [hsame (by simp)] at hn
    cases hn
  | commit row _ hrun hn =>
    obtain ⟨n, ho⟩ := openRec_of_running hrun
    rw [State.sweeping, commitRecord_sst ho] at hsw
    exact absurd (hsw.symm.trans hn) (by decide)
  | stage => exact hs hsw
  | flushOne c rest hq | ringBusy c rest _ hq | start c rest _ hq =>
    obtain ⟨-, -, hempty, -⟩ := hs (hsame (by simp))
    simp [hq] at hempty
  | pop e rest hq =>
    obtain ⟨-, -, -, hempty, -⟩ := hs (hsame (by simp))
    simp [hq] at hempty
  | gap n ho =>
    obtain ⟨hidle, -⟩ := hs (hsame (by simp))
    rw [TableWords.acqIdle_iff] at hidle
    simp [hidle, AcqState.openRec] at ho
  | engine h =>
    obtain ⟨-, hble, -⟩ := hs (hsame (by simp))
    obtain ⟨r, -, hr, -⟩ := h.goes
    simp [hble, Engine.running] at hr
  | _ => exact hframe (by simp) (by simp) (by simp) (by simp) (by simp) (by simp)

/-- Settles O7, move by move. -/
theorem sheetAndSweepKept : Obligations.SheetAndSweepKept := fun _ _ h =>
  ⟨step_keeps Move.sheet h, step_keeps Move.sweep h⟩

/-! ## The ring and the ranges (R7, R48, R53, R65, R75, R166) -/

/-- The successor of a ring row is a ring row. -/
theorem AcqTable.succ_mem {c : AcqTable} {r : Nat} (hl : 1 ≤ c.ringLength) (h1 : c.ringBase ≤ r)
    (h2 : r < c.ringBase + c.ringLength) : c.ringBase ≤ c.succ r ∧ c.succ r < c.ringBase + c.ringLength := by
  unfold AcqTable.succ
  split <;> omega

/-- What an accepted word does to the geometry and the ranges of the ACQ table (R7, R48). -/
theorem AcqTable.withWord_spec {c c' : AcqTable} {i : Nat} {w : Word} (h : c.withWord i w = some c') :
    (2 ≤ i → c'.ringBase = c.ringBase ∧ c'.ringLength = c.ringLength) ∧
      (16 ≤ c.ringLength → c.ringLength ≤ 2048 → c.ringBase + c.ringLength ≤ 2048 →
        16 ≤ c'.ringLength ∧ c'.ringLength ≤ 2048 ∧ c'.ringBase + c'.ringLength ≤ 2048) ∧
      (c.preCount ≤ 2047 → c'.preCount ≤ 2047) ∧ (c.postCount ≤ 2047 → c'.postCount ≤ 2047) ∧
      (c.listLength ≤ 16 → c'.listLength ≤ 16) ∧
      (1 ≤ c.trigCount ∧ c.trigCount ≤ 65535 → 1 ≤ c'.trigCount ∧ c'.trigCount ≤ 65535) ∧
      (i ≠ 11 → c'.period = c.period) := by
  have hw := w.isLt
  unfold AcqTable.withWord at h
  split at h
  case h_15 => cases h
  case h_6 | h_9 | h_12 | h_14 => cases h; simp; omega
  case h_7 | h_10 | h_11 | h_13 =>
    obtain ⟨x, -, rfl⟩ := Option.map_eq_some_iff.mp h
    simp
    omega
  case h_1 | h_2 | h_3 | h_4 | h_5 | h_8 =>
    split at h <;> cases h
    refine ⟨?_, ?_, ?_, ?_, ?_, ?_, ?_⟩ <;> simp <;> omega

/-- Outside IDLE a write changes the period and the timeout alone (R49). -/
theorem acqUnlocked_cases {i : Nat} {w : Word} {c : AcqTable} (hu : acqUnlocked s i = true)
    (hc : s.acq.cfg.withWord i w = some c) :
    s.acqIdle = true ∨
      (i ≠ 0 ∧ i ≠ 1 ∧ { c with period := s.acq.cfg.period, timeout := s.acq.cfg.timeout } = s.acq.cfg) := by
  unfold acqUnlocked at hu
  split at hu
  case h_1 | h_2 => cases hc; exact .inr ⟨by decide, by decide, rfl⟩
  case h_3 | h_4 => exact .inl (Bool.and_eq_true_iff.mp hu).1
  case h_5 => exact .inl hu

theorem commitRecord_acq {row : List Word} {n : Fin 8} (ho : s.acq.state.openRec = some n) :
    (commitRecord s row).acq.cfg = s.acq.cfg ∧ (commitRecord s row).acq.writer = s.acq.cfg.succ s.acq.writer := by
  obtain ⟨-, -, -, hcfg, hwriter, -⟩ := commitRecord_part row ho
  exact ⟨hcfg.trans (by rw [commitRow_acq]), hwriter.trans (by rw [commitRow_acq])⟩

theorem Move.ring {cs : List Part} (h : Move s cs t) (hs : RingSound s) : RingSound t := by
  have hframe : Part.cfg ∉ cs → Part.writer ∉ cs → RingSound t := fun h1 h2 => by
    have e1 : t.acq.cfg = s.acq.cfg := h.kept h1
    have e2 : t.acq.writer = s.acq.writer := h.kept h2
    rwa [RingSound, e1, e2]
  obtain ⟨h16, h2048, hbase, hlow, hhigh⟩ := hs
  cases h with
  | powerOn => simp [RingSound, State.powerOn, AcqTable.reset]
  | commit row _ hrun =>
    obtain ⟨n, ho⟩ := openRec_of_running hrun
    obtain ⟨hcfg, hwriter⟩ := commitRecord_acq (row := row) ho
    obtain ⟨k1, k2⟩ := AcqTable.succ_mem (by omega) hlow hhigh
    rw [RingSound, hcfg, hwriter]
    exact ⟨h16, h2048, hbase, k1, k2⟩
  | table i v c hu hc =>
    obtain ⟨hsame, hlegal, -⟩ := AcqTable.withWord_spec hc
    obtain ⟨k1, k2, k3⟩ := hlegal h16 h2048 hbase
    rw [RingSound, TableWords.acqWritten_acq]
    refine ⟨k1, k2, k3, ?_⟩
    by_cases hi : i ≤ 1
    · simp only [hi, if_true]; omega
    · obtain ⟨e1, e2⟩ := hsame (by omega)
      simp only [hi, if_false, e1, e2]
      exact ⟨hlow, hhigh⟩
  | _ => exact hframe (by simp) (by simp)

theorem countAfter_le (h : s.tru.count ≤ 65535) : countAfter s ≤ 65535 := by
  unfold countAfter
  split
  · exact Nat.min_le_right _ _
  · exact h

theorem Continued.count (h : Continued s t) : t.tru.count = s.tru.count ∨ t.tru.count = 0 := by
  cases h with
  | idle => exact .inl rfl
  | again => exact .inr rfl
  | starved => exact .inl rfl

theorem Committed.count {row : List Word} {n : Fin 8} (h : Committed s row n t) :
    t.tru.count = countAfter s ∨ t.tru.count = 0 := by
  cases h with
  | grown => exact .inl rfl
  | sealed d f hd hf hv => exact hv.count

theorem Move.ranges {cs : List Part} (h : Move s cs t) (hs : RangesSound s) : RangesSound t := by
  have hframe : ∀ {v : State}, v.acq.cfg = s.acq.cfg → v.hpi = s.hpi → v.acq.dropped = s.acq.dropped →
      v.tru.count ≤ 65535 → RangesSound v := fun e1 e2 e3 hcount => by
    obtain ⟨h1, h2, h3, h4, h5, h6, -⟩ := hs
    rw [RangesSound, e1, e2, e3]
    exact ⟨h1, h2, h3, h4, h5, h6, hcount⟩
  have hkept : Part.cfg ∉ cs → Part.port ∉ cs → Part.dropped ∉ cs → Part.tru ∉ cs → RangesSound t := fun h1 h2 h3 h4 => by
    have e4 : t.tru = s.tru := h.kept h4
    exact hframe (h.kept h1) (h.kept h2) (h.kept h3) (by rw [e4]; exact hs.2.2.2.2.2.2)
  have hcount : s.tru.count ≤ 65535 := hs.2.2.2.2.2.2
  cases h with
  | powerOn => simp [RangesSound, State.powerOn, AcqTable.reset, TableName.size]
  | port p hp =>
    obtain ⟨h1, h2, h3, h4, h5, h6, h7⟩ := hs
    exact ⟨h1, h2, h3, h4, hp h5, h6, h7⟩
  | softReset =>
    obtain ⟨h1, h2, h3, h4, -⟩ := hs
    simp [RangesSound, TableName.size, h1, h2, h3, h4]
  | arm => exact hframe rfl rfl rfl (Nat.zero_le _)
  | stop => exact hframe (by simp) (by simp) (by simp) (by simpa using hcount)
  | latchHost => exact hframe rfl rfl rfl hcount
  | resume => exact hframe rfl rfl rfl (Nat.zero_le _)
  | drop =>
    obtain ⟨h1, h2, h3, h4, h5, -, h7⟩ := hs
    exact ⟨h1, h2, h3, h4, h5, Nat.min_le_right _ _, h7⟩
  | latchLine => exact hframe rfl rfl rfl hcount
  | commit row hp hrun hsw hw =>
    obtain ⟨n, ho⟩ := openRec_of_running hrun
    have hm : Move s _ _ := .commit row hp hrun hsw hw
    refine hframe (hm.kept (p := .cfg) (by simp)) (hm.kept (p := .port) (by simp)) (hm.kept (p := .dropped) (by simp)) ?_
    rcases (commitRecord_committed row ho).count with e | e
    · rw [e]; exact countAfter_le hcount
    · rw [e]; exact Nat.zero_le _
  | table i v c hu hc =>
    have hm : Move s _ _ := .table i v c hu hc
    have e2 : (acqWritten s i c).hpi = s.hpi := hm.kept (p := .port) (by simp)
    have e4 : (acqWritten s i c).tru = s.tru := hm.kept (p := .tru) (by simp)
    obtain ⟨-, -, k1, k2, k3, k4, -⟩ := AcqTable.withWord_spec hc
    obtain ⟨h1, h2, h3, h4, h5, h6, h7⟩ := hs
    rw [RangesSound, TableWords.acqWritten_acq, e2, e4]
    exact ⟨k1 h1, k2 h2, k3 h3, k4 h4, h5, h6, h7⟩
  | _ => exact hkept (by simp) (by simp) (by simp) (by simp)

/-- Settles O8, move by move. -/
theorem ringAndRangesKept : Obligations.RingAndRangesKept := fun _ _ h =>
  ⟨step_keeps Move.ring h, step_keeps Move.ranges h⟩

/-! ## Tickets and places (R108, R110) -/

theorem submitRefusal_none (h : submitRefusal s = none) :
    s.cq.staging.kindOk = true ∧ s.cq.staging.rectOk s.rtb = true ∧ s.cq.staging.recordsOk s.rtb = true ∧
      s.cq.staging.paramOk = true ∧ s.cq.tickets ≠ 0 := by
  unfold submitRefusal at h
  split_ifs at h
  simp_all

theorem EngineGoes.tickets {r r' : Running} (h : EngineGoes s r' t) (hr : s.ble.running = some r)
    (hs : TicketsSound s) : TicketsSound t := by
  have hone : runningCount s = 1 := by simp [runningCount, hr]
  obtain ⟨hsum, hpend⟩ := hs
  cases h with
  | on e x he =>
    have hone' : e.running.toList.length = 1 := by simp [he]
    rw [hone] at hsum hpend
    refine ⟨?_, hpend.trans hone'.symm⟩
    show s.cq.tickets + s.cq.queue.length + e.running.toList.length + postedCount s.rq = _
    rw [hone']
    exact hsum
  | answered st p d x =>
    rw [hone] at hsum hpend
    have hposted := postedCount_fillPending (r'.cmd.entry st p d) s.rq (by omega)
    have hpending := pendingCount_fillPending (r'.cmd.entry st p d) s.rq
    refine ⟨?_, ?_⟩
    · show s.cq.tickets + s.cq.queue.length + 0 + postedCount (fillPending (r'.cmd.entry st p d) s.rq) = _
      omega
    · show pendingCount (fillPending (r'.cmd.entry st p d) s.rq) = 0
      omega

theorem counts_append_pending (rq : List Place) :
    postedCount (rq ++ [.pending]) = postedCount rq ∧ pendingCount (rq ++ [.pending]) = pendingCount rq + 1 := by
  simp [postedCount, pendingCount]

theorem counts_append_posted (rq : List Place) (e : Entry) :
    postedCount (rq ++ [.posted e]) = postedCount rq + 1 ∧ pendingCount (rq ++ [.posted e]) = pendingCount rq := by
  simp [postedCount, pendingCount]

theorem counts_cons_posted (rq : List Place) (e : Entry) :
    postedCount (.posted e :: rq) = postedCount rq + 1 ∧ pendingCount (.posted e :: rq) = pendingCount rq := by
  simp [postedCount, pendingCount]

/-- A started command runs, in RUN or in XWAIT (R120, R146). -/
theorem startCommand_running (s : State) (c : Staged) : (startCommand s c).ble.running = some (Running.start c) := by
  unfold startCommand
  split <;> rfl

theorem startCommand_kept (s : State) (c : Staged) :
    (startCommand s c).cq = s.cq ∧ (startCommand s c).rq = s.rq ∧ (startCommand s c).rtb = s.rtb ∧
      (startCommand s c).acq = s.acq := by
  unfold startCommand
  split <;> exact ⟨rfl, rfl, rfl, rfl⟩

theorem Move.tickets {cs : List Part} (h : Move s cs t) (hs : TicketsSound s) : TicketsSound t := by
  have hframe : Part.cq ∉ cs → Part.rq ∉ cs → Part.ble ∉ cs → TicketsSound t := fun h1 h2 h3 => by
    have e1 : t.cq = s.cq := h.kept h1
    have e2 : t.rq = s.rq := h.kept h2
    have e3 : t.ble = s.ble := h.kept h3
    rwa [TicketsSound, runningCount, e1, e2, e3]
  obtain ⟨hsum, hpend⟩ := hs
  cases h with
  | powerOn => exact ⟨rfl, rfl⟩
  | softReset => exact ⟨rfl, rfl⟩
  | submit _ hc =>
    obtain ⟨-, -, -, -, hfree⟩ := submitRefusal_none hc
    refine ⟨?_, hpend⟩
    show s.cq.tickets - 1 + (s.cq.queue ++ [s.cq.staging]).length + runningCount s + postedCount s.rq = _
    rw [List.length_append, List.length_singleton]
    omega
  | stage => exact ⟨hsum, hpend⟩
  | flushOne c rest hq =>
    obtain ⟨k1, k2⟩ := counts_append_posted s.rq (c.entry .flushed 0 .none)
    refine ⟨?_, k2.trans hpend⟩
    show s.cq.tickets + s.cq.queue.tail.length + runningCount s +
      postedCount (s.rq ++ [.posted (c.entry .flushed 0 .none)]) = _
    rw [hq, List.length_cons] at hsum
    rw [hq, List.tail_cons, k1]
    omega
  | pop e rest hq =>
    obtain ⟨k1, k2⟩ := counts_cons_posted rest e
    rw [hq, k1] at hsum
    rw [hq, k2] at hpend
    refine ⟨?_, ?_⟩
    · show s.cq.tickets + 1 + s.cq.queue.length + runningCount s + postedCount s.rq.tail = _
      rw [hq, List.tail_cons]
      omega
    · show pendingCount s.rq.tail = _
      rw [hq]
      exact hpend
  | ringBusy c rest hb hq =>
    have hidle : runningCount s = 0 := by rw [runningCount, hb]; rfl
    obtain ⟨k1, k2⟩ := counts_append_pending s.rq
    have hposted := postedCount_fillPending (c.entry .ringBusy 0 .none) (s.rq ++ [.pending]) (by omega)
    have hpending := pendingCount_fillPending (c.entry .ringBusy 0 .none) (s.rq ++ [.pending])
    rw [hq, List.length_cons] at hsum
    refine ⟨?_, ?_⟩
    · show s.cq.tickets + rest.length + 0 + postedCount (fillPending (c.entry .ringBusy 0 .none) (s.rq ++ [.pending])) = _
      omega
    · show pendingCount (fillPending (c.entry .ringBusy 0 .none) (s.rq ++ [.pending])) = 0
      omega
  | start c rest hb hq =>
    have hidle : runningCount s = 0 := by rw [runningCount, hb]; rfl
    obtain ⟨k1, k2⟩ := counts_append_pending s.rq
    rw [hq, List.length_cons] at hsum
    obtain ⟨e1, e2, -⟩ := startCommand_kept
      ({ s with cq := { s.cq with queue := rest }, rq := s.rq ++ [.pending] } : State) c
    rw [TicketsSound, runningCount, startCommand_running, e1, e2, k1, k2]
    simp only [Option.toList_some, List.length_singleton]
    omega
  | engine h =>
    obtain ⟨r, r', hr, -, hgo⟩ := h.goes
    exact hgo.tickets hr ⟨hsum, hpend⟩
  | _ => exact hframe (by simp) (by simp) (by simp)

end Sys2Proof.Machine.Steps
end

section
/-! SUPPORT. The invariants of the running command on the ring, the latches, the timer and the scan, move by move. -/

namespace Sys2Proof.Machine.Steps

variable {s t u : State}

/-! ## What an accepted ARM finds (R50) -/

/-- A check that finds no reason: its first condition holds, and so do the rest. -/
theorem check_eq_none {p : Prop} [Decidable p] {q : Reason} {rest : Option Reason} :
    (if p then some q else rest) = none ↔ ¬p ∧ rest = none := by
  split <;> simp_all

theorem armRefusal_none :
    armRefusal s = none ↔
      s.acqIdle = true ∧ (1 ≤ s.acq.cfg.listLength ∧ s.acq.cfg.listLength ≤ 16) ∧
        s.acq.cfg.preCount + 1 + s.acq.cfg.postCount ≤ s.acq.cfg.ringLength ∧
        (∀ i : Fin 16, s.cnv.slots[i].crossed = false) ∧
        (∀ r ∈ s.ble.running, r.cmd.overlapsRing s.acq.cfg = false) ∧ s.lowestFree ≠ none := by
  have hslots : s.cnv.slots.any Slot.crossed = false ↔ ∀ i : Fin 16, s.cnv.slots[i].crossed = false := by
    simp [Vector.any_eq_false, Fin.forall_iff]
  have hring : s.ble.running.any (fun r => r.cmd.overlapsRing s.acq.cfg) = false ↔
      ∀ r ∈ s.ble.running, r.cmd.overlapsRing s.acq.cfg = false := by
    cases s.ble.running <;> simp
  simp only [armRefusal, check_eq_none, Vector.any_toList, Bool.not_eq_true, hslots, hring]
  simp

/-! ## The running command and the ring (R51, R121) -/

/-- The ring rows are all that an overlap looks at. -/
theorem overlapsRing_congr {a b : AcqTable} (c : Staged) (h1 : a.ringBase = b.ringBase) (h2 : a.ringLength = b.ringLength) :
    c.overlapsRing a = c.overlapsRing b := by
  simp only [Staged.overlapsRing, Coord.overlapsRing, h1, h2]

theorem not_idle_of_running (hr : s.timerRunning = true) : s.acqIdle = false := by
  obtain ⟨n, ho⟩ := openRec_of_running hr
  cases hs : s.acq.state <;> simp [hs, AcqState.openRec] at ho <;> simp [State.acqIdle, hs]

theorem Move.ringClear {cs : List Part} (h : Move s cs t) (hs : RingKeptClear s) : RingKeptClear t := by
  have hframe : ∀ {v : State}, v.acq.cfg = s.acq.cfg → (v.acqIdle = false → s.acqIdle = false) →
      (∀ r ∈ v.ble.running, ∃ r' ∈ s.ble.running, r'.cmd = r.cmd) → RingKeptClear v := by
    intro v e1 e2 e3 hi r hr
    obtain ⟨r', hr', hcmd⟩ := e3 r hr
    rw [e1, ← hcmd]
    exact hs (e2 hi) r' hr'
  have hkept : Part.cfg ∉ cs → Part.mode ∉ cs → Part.ble ∉ cs → RingKeptClear t := fun h1 h2 h3 => by
    have e2 : t.acq.state = s.acq.state := h.kept h2
    have e3 : t.ble = s.ble := h.kept h3
    exact hframe (h.kept h1) (by rw [State.acqIdle, e2]; exact id) fun r hr => ⟨r, by rwa [e3] at hr, rfl⟩
  cases h with
  | powerOn => exact fun hi => by cases hi
  | softReset => exact fun hi => absurd hi (by simp [State.acqIdle])
  | stop => exact fun hi => absurd hi (by simp [State.acqIdle])
  | arm n _ hc =>
    obtain ⟨-, -, -, -, hclear, -⟩ := armRefusal_none.mp hc
    exact fun _ => hclear
  | resume m _ _ _ ha =>
    refine hframe rfl (fun _ => ?_) fun r hr => ⟨r, hr, rfl⟩
    simp [State.acqIdle, ha]
  | commit row hp hrun hsw hw =>
    have hm : Move s _ _ := .commit row hp hrun hsw hw
    have e : (commitRecord s row).ble = s.ble := hm.kept (p := .ble) (by simp)
    exact hframe (hm.kept (p := .cfg) (by simp)) (fun _ => not_idle_of_running hrun) fun r hr => ⟨r, by rwa [e] at hr, rfl⟩
  | start c rest hb hq hc =>
    intro hi r hr
    obtain ⟨-, -, -, e⟩ := startCommand_kept
      ({ s with cq := { s.cq with queue := rest }, rq := s.rq ++ [.pending] } : State) c
    rw [State.acqIdle, e] at hi
    rw [startCommand_running] at hr
    obtain rfl : Running.start c = r := by simpa using hr
    rw [e]
    exact hc.resolve_left fun hidle => by
      rw [State.acqIdle] at hidle
      rw [hidle] at hi
      cases hi
  | engine h =>
    obtain ⟨r, r', hr, hcmd, hgo⟩ := h.goes
    cases hgo with
    | on e x he =>
      refine hframe rfl id fun r'' hr'' => ⟨r, hr, ?_⟩
      obtain rfl : r' = r'' := Option.some.inj (he.symm.trans hr'')
      exact hcmd.symm
    | answered => exact hframe rfl id fun r'' hr'' => by cases hr''
  | table i v c hu hc =>
    have e1 : (acqWritten s i c).acq.state = s.acq.state := by rw [TableWords.acqWritten_acq]
    have e2 : (acqWritten s i c).acq.cfg = c := by rw [TableWords.acqWritten_acq]
    have e3 : (acqWritten s i c).ble = s.ble := (Move.table i v c hu hc).kept (p := .ble) (by simp)
    intro hi r hr
    rw [State.acqIdle, e1] at hi
    rw [e3] at hr
    rcases acqUnlocked_cases hu hc with hidle | ⟨-, -, hsame⟩
    · rw [State.acqIdle, hi] at hidle
      cases hidle
    · rw [e2, ← hs hi r hr]
      exact overlapsRing_congr r.cmd (congrArg AcqTable.ringBase hsame :) (congrArg AcqTable.ringLength hsame :)
  | _ => exact hkept (by simp) (by simp) (by simp)

/-- Settles O13, move by move. -/
theorem ringKeptClearOfCommands : Obligations.RingKeptClearOfCommands := fun _ _ hs h => step_keeps Move.ringClear h hs

/-! ## The trigger latches (R70, R75, R79) -/

/-- With both latches clear and ACQ not in PRE, or the count at 0, the latches are sound. -/
theorem latchesSound_of_clear (hhost : s.tru.host = false) (hline : s.tru.line = false)
    (hcount : ∀ n, s.acq.state = .pre n → s.tru.count = 0) : LatchesSound s :=
  ⟨fun h => absurd (hhost.symm.trans h) (by decide), fun h => absurd (hline.symm.trans h) (by decide), hcount⟩

/-- Outside PRE and WAITTRIG the latches are clear (R70). -/
theorem latches_clear (hs : LatchesSound s) (h : s.acq.state.latching = false) :
    s.tru.host = false ∧ s.tru.line = false := by
  obtain ⟨h1, h2, -⟩ := hs
  rw [h] at h1 h2
  constructor
  · by_contra hc
    exact absurd (h1 (by simpa using hc)).1 (by decide)
  · by_contra hc
    exact absurd (h2 (by simpa using hc)).1 (by decide)

theorem latching_idle (h : s.acqIdle = true) : s.acq.state.latching = false := by
  rw [TableWords.acqIdle_iff] at h
  rw [h]; rfl

theorem trigRefusal_none (h : trigRefusal s = none) : s.acq.state.latching = true ∧ s.acq.cfg.mask.host = true := by
  unfold trigRefusal at h
  split at h <;> simp_all [AcqState.latching]

/-- A commit drops the latches of PRE and WAITTRIG, and they are clear elsewhere. -/
theorem truAfter_clear (hs : LatchesSound s) (row : List Word) :
    (truAfter s row).host = false ∧ (truAfter s row).line = false := by
  cases hl : s.acq.state.latching with
  | true => simp [truAfter, hl]
  | false =>
    obtain ⟨h1, h2⟩ := latches_clear hs hl
    simp [truAfter, h1, h2]

theorem Continued.latches (h : Continued s t) (hhost : s.tru.host = false) (hline : s.tru.line = false) :
    LatchesSound t := by
  cases h with
  | idle => exact latchesSound_of_clear hhost hline fun n hn => by simp at hn
  | again => exact latchesSound_of_clear hhost hline fun n _ => rfl
  | starved => exact latchesSound_of_clear hhost hline fun n hn => by simp at hn

theorem Committed.latches {row : List Word} {n : Fin 8} (h : Committed s row n t) (hs : LatchesSound s) :
    LatchesSound t := by
  obtain ⟨hhost, hline⟩ := truAfter_clear hs row
  cases h with
  | grown d st e hd =>
    refine latchesSound_of_clear hhost hline fun m hm => ?_
    have hst : st = .pre m := hm
    show countAfter s = 0
    cases hd with
    | pre hpre => rw [countAfter, hpre]; exact hs.2.2 n hpre
    | wait | post | trigger => cases hst
  | sealed d f hd hf hv => exact hv.latches hhost hline

theorem Move.latches {cs : List Part} (h : Move s cs t) (hs : LatchesSound s) : LatchesSound t := by
  have hframe : Part.tru ∉ cs → Part.mode ∉ cs → Part.cfg ∉ cs → LatchesSound t := fun h1 h2 h3 => by
    have e1 : t.tru = s.tru := h.kept h1
    have e2 : t.acq.state = s.acq.state := h.kept h2
    have e3 : t.acq.cfg = s.acq.cfg := h.kept h3
    rwa [LatchesSound, e1, e2, e3]
  cases h with
  | powerOn => exact latchesSound_of_clear rfl rfl fun n hn => by cases hn
  | softReset => exact latchesSound_of_clear (by simp) (by simp) fun n hn => by simp at hn
  | stop => exact latchesSound_of_clear (by simp) (by simp) fun n hn => by simp at hn
  | arm => exact latchesSound_of_clear rfl rfl fun n _ => rfl
  | latchHost hc => exact ⟨fun _ => trigRefusal_none hc, hs.2⟩
  | latchLine sample line hl =>
    refine ⟨hs.1, fun h => ?_, hs.2.2⟩
    rcases hl h with h | h
    · exact hs.2.1 h
    · exact h
  | resume m _ _ _ ha =>
    obtain ⟨h1, h2⟩ := latches_clear hs (by rw [ha]; rfl)
    exact latchesSound_of_clear h1 h2 fun n _ => rfl
  | commit row hp hrun hsw hw =>
    obtain ⟨n, ho⟩ := openRec_of_running hrun
    exact (commitRecord_committed row ho).latches hs
  | table i v c hu hc =>
    have hm : Move s _ _ := .table i v c hu hc
    have e1 : (acqWritten s i c).tru = s.tru := hm.kept (p := .tru) (by simp)
    have e2 : (acqWritten s i c).acq.state = s.acq.state := by rw [TableWords.acqWritten_acq]
    have e3 : (acqWritten s i c).acq.cfg = c := by rw [TableWords.acqWritten_acq]
    rcases acqUnlocked_cases hu hc with hidle | ⟨-, -, hsame⟩
    · obtain ⟨h1, h2⟩ := latches_clear hs (latching_idle hidle)
      exact latchesSound_of_clear (by rw [e1, h1]) (by rw [e1, h2]) fun n hn => by rw [e1]; exact hs.2.2 n (e2 ▸ hn)
    · have hmask : c.mask = s.acq.cfg.mask := (congrArg AcqTable.mask hsame :)
      rwa [LatchesSound, e1, e2, e3, hmask]
  | _ => exact hframe (by simp) (by simp) (by simp)

/-! ## The timer (R19, R20, R21) -/

theorem periodTicks_range (w : Word) : 1 ≤ periodTicks w ∧ periodTicks w ≤ 65536 := by
  unfold periodTicks
  split
  · decide
  · next h =>
    have hne : w.toNat ≠ 0 := fun h0 => h (BitVec.eq_of_toNat_eq h0)
    have := w.isLt
    omega

theorem prescaler_pos (p : Prescaler) : 0 < p.num := by
  cases p <;> decide

/-- A stopped timer with the pending period active is sound. -/
theorem timerSound_of_stopped (hr : s.timerRunning = false) (ha : s.stm.active = periodTicks s.acq.cfg.period) :
    TimerSound s :=
  ⟨ha ▸ periodTicks_range _, fun _ => ha, fun h => absurd (hr.symm.trans h) (by decide)⟩

/-- A timer just started is sound. -/
theorem timerSound_of_started (hr : s.timerRunning = true) (ha : 1 ≤ s.stm.active ∧ s.stm.active ≤ 65536)
    (hc : s.stm.counter = s.stm.active) (hp : s.stm.prescale = 0) : TimerSound s :=
  ⟨ha, fun h => absurd (hr.symm.trans h) (by decide), fun _ => ⟨hc ▸ ha, hp ▸ prescaler_pos _⟩⟩

theorem entry_running (c : AcqTable) (n : Fin 8) : (c.entry n).openRec = some n := by
  unfold AcqTable.entry
  split <;> rfl

theorem Continued.timer (h : Continued s t) (hr : s.timerRunning = true) (hs : TimerSound s) : TimerSound t := by
  cases h with
  | idle => exact timerSound_of_stopped (by simp [State.timerRunning, AcqState.openRec]) (by simp)
  | again k =>
    have hrun : (s.allocate k).timerRunning = true := by simp [State.timerRunning, entry_running]
    obtain ⟨h1, -, h3⟩ := hs
    exact ⟨h1, fun h => absurd (hrun.symm.trans h) (by decide), fun _ => h3 hr⟩
  | starved => exact timerSound_of_stopped (by simp [State.timerRunning, AcqState.openRec]) (by simp)

theorem Grown.running {row : List Word} {n : Fin 8} {d : Descriptor} {st : AcqState} (h : Grown s row n d st) :
    st.openRec = some n := by
  cases h with
  | pre => split <;> rfl
  | wait | post | trigger => rfl

theorem Committed.timer {row : List Word} {n : Fin 8} (h : Committed s row n t) (hr : s.timerRunning = true)
    (hs : TimerSound s) : TimerSound t := by
  obtain ⟨h1, -, h3⟩ := hs
  cases h with
  | grown d st e hd =>
    have hrun : st.openRec.isSome = true := by rw [hd.running]; rfl
    exact ⟨h1, fun h => absurd (hrun.symm.trans h) (by decide), fun _ => h3 hr⟩
  | sealed d f hd hf hv =>
    exact hv.timer hr ⟨h1, fun h => absurd (hr.symm.trans h) (by decide), fun _ => h3 hr⟩

theorem Move.timer {cs : List Part} (h : Move s cs t) (hs : TimerSound s) : TimerSound t := by
  have hframe : Part.stm ∉ cs → Part.mode ∉ cs → Part.cfg ∉ cs → TimerSound t := fun h1 h2 h3 => by
    have e1 : t.stm = s.stm := h.kept h1
    have e2 : t.acq.state = s.acq.state := h.kept h2
    have e3 : t.acq.cfg = s.acq.cfg := h.kept h3
    rwa [TimerSound, State.timerRunning, e1, e2, e3]
  obtain ⟨hactive, hstopped, hrunning⟩ := hs
  cases h with
  | powerOn => exact timerSound_of_stopped rfl rfl
  | softReset => exact timerSound_of_stopped (by simp [State.timerRunning, AcqState.openRec]) (by simp)
  | stop => exact timerSound_of_stopped (by simp [State.timerRunning, AcqState.openRec]) (by simp)
  | arm n => exact timerSound_of_started (by simp [State.timerRunning, entry_running]) hactive rfl rfl
  | resume m => exact timerSound_of_started (by simp [State.timerRunning, entry_running]) hactive rfl rfl
  | promote => exact ⟨periodTicks_range _, fun _ => rfl, hrunning⟩
  | reload hr => exact timerSound_of_started hr hactive rfl rfl
  | lines => exact ⟨hactive, hstopped, hrunning⟩
  | tick p c hr hp hc =>
    obtain ⟨hcounter, -⟩ := hrunning hr
    refine ⟨hactive, hstopped, fun _ => ⟨?_, hp⟩⟩
    show 1 ≤ c ∧ c ≤ 65536
    omega
  | commit row hp hrun hsw hw =>
    obtain ⟨n, ho⟩ := openRec_of_running hrun
    exact (commitRecord_committed row ho).timer hrun ⟨hactive, hstopped, hrunning⟩
  | table i v c hu hc =>
    have e1 : (acqWritten s i c).timerRunning = s.timerRunning := by
      rw [State.timerRunning, TableWords.acqWritten_acq]; rfl
    have e2 : (acqWritten s i c).acq.cfg = c := by rw [TableWords.acqWritten_acq]
    cases hr : s.timerRunning with
    | true =>
      have hstm : (acqWritten s i c).stm = s.stm := by rw [TableWords.acqWritten_stm, if_neg (by simp [hr])]
      rcases acqUnlocked_cases hu hc with hidle | ⟨-, -, hsame⟩
      · rw [not_idle_of_running hr] at hidle
        cases hidle
      · have hpre : c.prescaler = s.acq.cfg.prescaler := (congrArg AcqTable.prescaler hsame :)
        rw [TimerSound, e1, e2, hstm, hpre]
        exact ⟨hactive, fun h => absurd (hr.symm.trans h) (by decide), hrunning⟩
    | false =>
      refine timerSound_of_stopped (e1.trans hr) ?_
      rw [TableWords.acqWritten_stm, e2]
      by_cases hi : i = 11
      · rw [if_pos ⟨hi, hr⟩]
      · obtain ⟨-, -, -, -, -, -, hperiod⟩ := AcqTable.withWord_spec hc
        replace hperiod := hperiod hi
        rw [if_neg (by simp [hi]), hperiod]
        exact hstopped hr
  | _ => exact hframe (by simp) (by simp) (by simp)

/-! ## The scan (R25, R29, R36, R37, R50) -/

/-- With the timer stopped no scan is in progress (R29). -/
theorem scan_free (hs : ScanSound s) (hr : s.timerRunning = false) : s.cnv.scan = .free := by
  obtain ⟨-, h⟩ := hs
  cases hscan : s.cnv.scan with
  | free => rfl
  | converting c => rw [hscan] at h; exact absurd (hr.symm.trans h.1) (by decide)
  | presented row => rw [hscan] at h; exact absurd (hr.symm.trans h.1) (by decide)

theorem scanSound_of_free (hscan : s.cnv.scan = .free)
    (hcfg : s.acqIdle = false →
      1 ≤ s.acq.cfg.listLength ∧ s.acq.cfg.listLength ≤ 16 ∧
        s.acq.cfg.preCount + 1 + s.acq.cfg.postCount ≤ s.acq.cfg.ringLength) : ScanSound s :=
  ⟨hcfg, by rw [hscan]; trivial⟩

theorem stopped_of_idle (h : s.acqIdle = true) : s.timerRunning = false := by
  rw [TableWords.acqIdle_iff] at h
  rw [State.timerRunning, h]; rfl

theorem Power.num_pos (p : Power) : 0 < p.num := by
  cases p <;> decide

theorem Move.scan {cs : List Part} (h : Move s cs t) (hs : ScanSound s) : ScanSound t := by
  have hframe : Part.scan ∉ cs → Part.slots ∉ cs → Part.cfg ∉ cs → Part.mode ∉ cs → ScanSound t := fun h1 h2 h3 h4 => by
    have e1 : t.cnv.scan = s.cnv.scan := h.kept h1
    have e2 : t.cnv.slots = s.cnv.slots := h.kept h2
    have e3 : t.acq.cfg = s.acq.cfg := h.kept h3
    have e4 : t.acq.state = s.acq.state := h.kept h4
    rwa [ScanSound, State.acqIdle, State.timerRunning, e1, e2, e3, e4]
  have hcfg := hs.1
  cases h with
  | powerOn => exact scanSound_of_free rfl fun h => by cases h
  | softReset => exact scanSound_of_free (by simp) fun h => by simp [State.acqIdle] at h
  | stop => exact scanSound_of_free (by simp) fun h => by simp [State.acqIdle] at h
  | arm n _ hc =>
    obtain ⟨hidle, hlist, hgeometry, -⟩ := armRefusal_none.mp hc
    have hfree := scan_free hs (stopped_of_idle hidle)
    exact scanSound_of_free hfree fun _ => ⟨hlist.1, hlist.2, hgeometry⟩
  | resume m _ _ _ ha =>
    have hfree : s.cnv.scan = .free := scan_free hs (by rw [State.timerRunning, ha]; rfl)
    exact scanSound_of_free hfree fun _ => hcfg (by simp [State.acqIdle, ha])
  | scanStart hr =>
    obtain ⟨hlist, -⟩ := hcfg (not_idle_of_running hr)
    exact ⟨hcfg, hr, hlist, Nat.zero_le _, fun i _ => Power.num_pos _⟩
  | convert c d hc hb hd =>
    obtain ⟨-, hscan⟩ := hs
    rw [hc] at hscan
    obtain ⟨hr, hl, hsum, htaken⟩ := hscan
    rcases hd with ⟨e1, e2⟩ | ⟨e1, e2, hlt⟩
    · refine ⟨hcfg, hr, ?_, ?_, fun i hi => ?_⟩
      · rw [hb]; exact hl
      · rw [e1, e2]; exact hsum
      · rw [e1]; exact htaken i (hb ▸ hi)
    · refine ⟨hcfg, hr, ?_, ?_, fun i hi => ?_⟩
      · rw [hb]; exact hl
      · rw [e1]; omega
      · rw [e1]; exact hlt i (hb ▸ hi)
  | nextSlot c w hc hl =>
    obtain ⟨-, hscan⟩ := hs
    rw [hc] at hscan
    exact ⟨hcfg, hscan.1, by simpa using hl, Nat.zero_le _, fun i _ => Power.num_pos _⟩
  | present c w hc hl =>
    obtain ⟨-, hscan⟩ := hs
    rw [hc] at hscan
    obtain ⟨hr, hlt, -⟩ := hscan
    refine ⟨hcfg, hr, ?_⟩
    rw [List.length_append, List.length_singleton]
    show c.buffer.length + 1 = s.acq.cfg.listLength
    omega
  | scanEnd => exact scanSound_of_free rfl hcfg
  | commit row hp hrun hsw hw =>
    have hm : Move s _ _ := .commit row hp hrun hsw hw
    obtain ⟨n, ho⟩ := openRec_of_running hrun
    obtain ⟨-, -, -, -, -, hcnv, -⟩ := commitRecord_part row ho
    have e : (commitRecord s row).acq.cfg = s.acq.cfg := hm.kept (p := .cfg) (by simp)
    refine scanSound_of_free (by rw [hcnv, commitRow_cnv]) fun _ => ?_
    rw [e]
    exact hcfg (not_idle_of_running hrun)
  | slots slots hi =>
    have hfree := scan_free hs (stopped_of_idle hi)
    exact scanSound_of_free hfree hcfg
  | table i v c hu hc =>
    have hm : Move s _ _ := .table i v c hu hc
    have e1 : (acqWritten s i c).cnv.scan = s.cnv.scan := hm.kept (p := .scan) (by simp)
    have e2 : (acqWritten s i c).cnv.slots = s.cnv.slots := hm.kept (p := .slots) (by simp)
    have e3 : (acqWritten s i c).acq.cfg = c := by rw [TableWords.acqWritten_acq]
    have e4 : (acqWritten s i c).acq.state = s.acq.state := by rw [TableWords.acqWritten_acq]
    rcases acqUnlocked_cases hu hc with hidle | ⟨-, -, hsame⟩
    · refine scanSound_of_free (e1.trans (scan_free hs (stopped_of_idle hidle))) fun h => ?_
      rw [State.acqIdle, e4] at h
      rw [State.acqIdle, h] at hidle
      cases hidle
    · have hlist : c.listLength = s.acq.cfg.listLength := (congrArg AcqTable.listLength hsame :)
      have hpre : c.preCount = s.acq.cfg.preCount := (congrArg AcqTable.preCount hsame :)
      have hpost : c.postCount = s.acq.cfg.postCount := (congrArg AcqTable.postCount hsame :)
      have hring : c.ringLength = s.acq.cfg.ringLength := (congrArg AcqTable.ringLength hsame :)
      rwa [ScanSound, State.acqIdle, State.timerRunning, e1, e2, e3, e4, hlist, hpre, hpost, hring]
  | _ => exact hframe (by simp) (by simp) (by simp) (by simp)

/-- Settles O12, move by move. -/
theorem scanTimerAndLatchesKept : Obligations.ScanTimerAndLatchesKept := fun _ _ h =>
  ⟨step_keeps Move.scan h, step_keeps Move.timer h, step_keeps Move.latches h⟩

end Sys2Proof.Machine.Steps
end

section
/-! SUPPORT. The record table and the pin counts, move by move. -/

namespace Sys2Proof.Machine.Steps

variable {s t u : State}

/-! ## The record table with the sealing order and the open record (R47, R82, R83, R90) -/

/-- RecordsSound of descriptors, sealing order and the number of the open record. -/
def TableSound (recs : Fin 8 → Descriptor) (order : List (Fin 8)) (o : Option (Fin 8)) : Prop :=
  (∀ n, (recs n).state = .opened ↔ o = some n) ∧ order.Nodup ∧ (∀ n, n ∈ order ↔ (recs n).state = .sealed) ∧
    (∀ n, (recs n).state = .free → recs n = Descriptor.free) ∧
    ∀ n, (recs n).state = .opened → (recs n).pins = 0 ∧ (recs n).truncated = false

theorem recordsSound_iff : RecordsSound s ↔ TableSound (fun n => s.rtb.recs[n]) s.rtb.order s.acq.state.openRec := Iff.rfl

section
variable {recs recs' : Fin 8 → Descriptor} {order : List (Fin 8)} {o : Option (Fin 8)} {n : Fin 8} {d : Descriptor}

/-- The open record changes and stays open. -/
theorem TableSound.modify (h : TableSound recs order (some n)) (hr : ∀ m, recs' m = if m = n then d else recs m)
    (hd : d.state = .opened) (hp : d.pins = 0) (ht : d.truncated = false) : TableSound recs' order (some n) := by
  obtain ⟨h1, h2, h3, h4, h5⟩ := h
  refine ⟨fun m => ?_, h2, fun m => ?_, fun m hm => ?_, fun m hm => ?_⟩ <;> rw [hr m] at * <;> by_cases hmn : m = n
  · simp [hmn, hd]
  · simpa [hmn] using h1 m
  · have hn := (h1 n).mpr rfl
    simp [hmn, hd, h3, hn]
  · simpa [hmn] using h3 m
  · simp [hmn, hd] at hm
  · simp only [hmn, if_false] at hm ⊢; exact h4 m hm
  · simp [hmn, hp, ht]
  · simp only [hmn, if_false] at hm ⊢; exact h5 m hm

/-- The open record is sealed at the end of the order (R87). -/
theorem TableSound.seal (h : TableSound recs order (some n)) (hr : ∀ m, recs' m = if m = n then d else recs m)
    (hd : d.state = .sealed) : TableSound recs' (order ++ [n]) none := by
  obtain ⟨h1, h2, h3, h4, h5⟩ := h
  have hn := (h1 n).mpr rfl
  have hnot : n ∉ order := fun hin => by rw [(h3 n).mp hin] at hn; cases hn
  refine ⟨fun m => ?_, ?_, fun m => ?_, fun m hm => ?_, fun m hm => ?_⟩
  · rw [hr m]
    by_cases hmn : m = n
    · simp [hmn, hd]
    · simp only [hmn, if_false, h1, Option.some.injEq, reduceCtorEq, iff_false]
      exact fun h => hmn h.symm
  · exact List.nodup_append.mpr ⟨h2, by simp, by simp; exact fun a ha hc => hnot (hc ▸ ha)⟩
  · rw [hr m]
    by_cases hmn : m = n
    · simp [hmn, hd]
    · simp [hmn, h3]
  · rw [hr m] at hm ⊢
    by_cases hmn : m = n
    · simp [hmn, hd] at hm
    · simp only [hmn, if_false] at hm ⊢; exact h4 m hm
  · rw [hr m] at hm ⊢
    by_cases hmn : m = n
    · simp [hmn, hd] at hm
    · simp only [hmn, if_false] at hm ⊢; exact h5 m hm

/-- A FREE descriptor becomes the open record (R85). -/
theorem TableSound.allocate (h : TableSound recs order none) (hn : (recs n).state = .free)
    (hr : ∀ m, recs' m = if m = n then d else recs m) (hd : d.state = .opened) (hp : d.pins = 0)
    (ht : d.truncated = false) : TableSound recs' order (some n) := by
  obtain ⟨h1, h2, h3, h4, h5⟩ := h
  refine ⟨fun m => ?_, h2, fun m => ?_, fun m hm => ?_, fun m hm => ?_⟩
  · rw [hr m]
    by_cases hmn : m = n
    · simp [hmn, hd]
    · simp only [hmn, if_false, h1, Option.some.injEq, reduceCtorEq, false_iff]
      exact fun h => hmn h.symm
  · rw [hr m]
    by_cases hmn : m = n
    · simp [hmn, hd, h3, hn]
    · simp [hmn, h3]
  · rw [hr m] at hm ⊢
    by_cases hmn : m = n
    · simp [hmn, hd] at hm
    · simp only [hmn, if_false] at hm ⊢; exact h4 m hm
  · rw [hr m] at hm ⊢
    by_cases hmn : m = n
    · simp [hmn, hp, ht]
    · simp only [hmn, if_false] at hm ⊢; exact h5 m hm

/-- A descriptor is freed, the open one or one while none is open (R94, R98). -/
theorem TableSound.release (h : TableSound recs order o) (ho : o = none ∨ o = some n)
    (hr : ∀ m, recs' m = if m = n then Descriptor.free else recs m) :
    TableSound recs' (order.filter (· != n)) none := by
  obtain ⟨h1, h2, h3, h4, h5⟩ := h
  refine ⟨fun m => ?_, h2.filter _, fun m => ?_, fun m hm => ?_, fun m hm => ?_⟩
  · rw [hr m]
    by_cases hmn : m = n
    · simp [hmn, Descriptor.free]
    · simp only [hmn, if_false, h1, reduceCtorEq, iff_false]
      rcases ho with rfl | rfl
      · simp
      · exact fun h => hmn (Option.some.inj h).symm
  · rw [hr m]
    by_cases hmn : m = n
    · simp [hmn, Descriptor.free]
    · simp [hmn, h3]
  · rw [hr m] at hm ⊢
    by_cases hmn : m = n
    · simp [hmn]
    · simp only [hmn, if_false] at hm ⊢; exact h4 m hm
  · rw [hr m] at hm ⊢
    by_cases hmn : m = n
    · simp [hmn, Descriptor.free] at hm
    · simp only [hmn, if_false] at hm ⊢; exact h5 m hm

/-- A SEALED descriptor is freed beside the open one (R94). -/
theorem TableSound.releaseSealed (h : TableSound recs order o) (hn : (recs n).state = .sealed)
    (hr : ∀ m, recs' m = if m = n then Descriptor.free else recs m) :
    TableSound recs' (order.filter (· != n)) o := by
  obtain ⟨h1, h2, h3, h4, h5⟩ := h
  refine ⟨fun m => ?_, h2.filter _, fun m => ?_, fun m hm => ?_, fun m hm => ?_⟩
  · rw [hr m]
    by_cases hmn : m = n
    · have := h1 n
      rw [hn] at this
      simpa [hmn, Descriptor.free] using this
    · simp [hmn, h1]
  · rw [hr m]
    by_cases hmn : m = n
    · simp [hmn, Descriptor.free]
    · simp [hmn, h3]
  · rw [hr m] at hm ⊢
    by_cases hmn : m = n
    · simp [hmn]
    · simp only [hmn, if_false] at hm ⊢; exact h4 m hm
  · rw [hr m] at hm ⊢
    by_cases hmn : m = n
    · simp [hmn, Descriptor.free] at hm
    · simp only [hmn, if_false] at hm ⊢; exact h5 m hm

/-- The pins of SEALED descriptors change (R91, R92). -/
theorem TableSound.pins (h : TableSound recs order o)
    (hr : ∀ m, ∃ k, recs' m = { recs m with pins := k } ∧ ((recs m).state ≠ .sealed → k = (recs m).pins)) :
    TableSound recs' order o := by
  obtain ⟨h1, h2, h3, h4, h5⟩ := h
  have hstate : ∀ m, (recs' m).state = (recs m).state := fun m => by obtain ⟨k, hk, -⟩ := hr m; rw [hk]
  have hsame : ∀ m, (recs m).state ≠ .sealed → recs' m = recs m := fun m hm => by
    obtain ⟨k, hk, hpins⟩ := hr m
    rw [hk, hpins hm]
  refine ⟨fun m => by rw [hstate]; exact h1 m, h2, fun m => by rw [hstate]; exact h3 m, fun m hm => ?_, fun m hm => ?_⟩
  · rw [hstate] at hm
    rw [hsame m (by simp [hm])]; exact h4 m hm
  · rw [hstate] at hm
    rw [hsame m (by simp [hm])]; exact h5 m hm

end

/-- A descriptor that is not SEALED has no pin. -/
theorem pins_zero (hs : RecordsSound s) {n : Fin 8} (hn : s.rtb.recs[n].state ≠ .sealed) : s.rtb.recs[n].pins = 0 := by
  obtain ⟨-, -, -, hfree, hopen⟩ := hs
  cases h : s.rtb.recs[n].state with
  | free => rw [hfree n h]; rfl
  | opened => exact (hopen n h).1
  | sealed => exact absurd h hn

theorem unpin_records {refs : List (Fin 8)} (hs : RecordsSound s) (hr : t.rtb = s.rtb.unpin refs)
    (ha : t.acq.state.openRec = s.acq.state.openRec) : RecordsSound t := by
  rw [recordsSound_iff, ha, hr, RecordTable.unpin_order]
  refine TableSound.pins hs fun m => ⟨_, RecordTable.unpin_get .., fun hm => ?_⟩
  have := pins_zero hs hm
  show s.rtb.recs[m].pins - _ = s.rtb.recs[m].pins
  omega

/-- What ends an acquisition leaves no record open (R66, R98). -/
theorem endRecord_table (hs : RecordsSound s) :
    TableSound (fun n => s.endRecord.rtb.recs[n]) s.endRecord.rtb.order none := by
  rw [recordsSound_iff] at hs
  unfold State.endRecord
  cases hst : s.acq.state with
  | idle | starved => rw [hst] at hs; exact hs
  | pre n | waittrig n =>
    rw [hst] at hs
    exact hs.release (.inr rfl) fun m => State.freeRec_get ..
  | post n =>
    rw [hst] at hs
    exact hs.seal (fun m => State.sealRec_get ..) rfl

theorem Continued.records (h : Continued s t)
    (hs : TableSound (fun n => s.rtb.recs[n]) s.rtb.order none) : RecordsSound t := by
  cases h with
  | idle => exact hs
  | again k hk =>
    rw [recordsSound_iff, State.allocate_acq, entry_running]
    exact hs.allocate (State.lowestFree_eq_some.mp hk).1 (fun m => State.allocate_get ..) rfl rfl rfl
  | starved => exact hs

/-- A commit leaves the descriptor open until it seals it. -/
theorem Grown.opened {row : List Word} {n : Fin 8} {d : Descriptor} {st : AcqState} (h : Grown s row n d st) :
    d.state = s.rtb.recs[n].state ∧ d.pins = s.rtb.recs[n].pins ∧ d.truncated = s.rtb.recs[n].truncated := by
  cases h <;> exact ⟨rfl, rfl, rfl⟩

theorem Committed.records {row : List Word} {n : Fin 8} (h : Committed s row n t) (hs : RecordsSound s)
    (ho : s.acq.state.openRec = some n) : RecordsSound t := by
  have hopen := (hs.1 n).mpr ho
  obtain ⟨hpins, htrunc⟩ := hs.2.2.2.2 n hopen
  rw [recordsSound_iff, ho] at hs
  cases h with
  | grown d st e hd =>
    obtain ⟨e1, e2, e3⟩ := hd.opened
    rw [recordsSound_iff]
    show TableSound _ _ st.openRec
    rw [hd.running]
    exact hs.modify (fun m => State.setRec_get ..) (e1.trans hopen) (e2.trans hpins) (e3.trans htrunc)
  | sealed d f hd hf hv =>
    refine hv.records (hs.seal (n := n) (d := { d with state := .sealed, truncated := false, pins := 0 }) (fun m => ?_) rfl)
    rw [State.sealRec_get]
    show (if m = n then _ else ((commitRow s row).setRec n d).rtb.recs[m]) = _
    by_cases hm : m = n
    · rw [if_pos hm, if_pos hm]
      show ({ ((commitRow s row).setRec n d).rtb.recs[n] with state := .sealed, truncated := false, pins := 0 } : Descriptor) = _
      rw [State.setRec_get, if_pos rfl]
    · rw [if_neg hm, if_neg hm, State.setRec_get, if_neg hm]; rfl

/-- The records that a command to be accepted references are SEALED (R105). -/
theorem sealed_of_recordsOk {c : Staged} {rtb : RecordTable} (h : c.recordsOk rtb = true) {n : Fin 8} (hn : n ∈ c.refs) :
    rtb.recs[n].state = .sealed := by
  simp only [Staged.recordsOk, List.all_eq_true, beq_iff_eq] at h
  exact h n hn

theorem Move.records {cs : List Part} (h : Move s cs t) (hs : RecordsSound s) : RecordsSound t := by
  have hframe : Part.rtb ∉ cs → Part.mode ∉ cs → RecordsSound t := fun h1 h2 => by
    have e1 : t.rtb = s.rtb := h.kept h1
    have e2 : t.acq.state = s.acq.state := h.kept h2
    rwa [RecordsSound, e1, e2]
  cases h with
  | powerOn =>
    exact ⟨fun n => by simp [State.powerOn, Descriptor.free, AcqState.openRec], List.nodup_nil,
      fun n => by simp [State.powerOn, Descriptor.free], fun n _ => by simp [State.powerOn],
      fun n hn => by simp [State.powerOn, Descriptor.free] at hn⟩
  | softReset =>
    refine (endRecord_table hs).pins fun m => ⟨0, RecordTable.unpinAll_get .., fun hm => ?_⟩
    have hend : RecordsSound s.stopOutcome := endRecord_table hs
    exact (pins_zero hend hm).symm
  | stop => exact endRecord_table hs
  | arm n _ hc hn =>
    obtain ⟨hidle, -⟩ := armRefusal_none.mp hc
    rw [TableWords.acqIdle_iff] at hidle
    rw [recordsSound_iff, hidle] at hs
    rw [recordsSound_iff]
    show TableSound _ _ (s.acq.cfg.entry n).openRec
    rw [entry_running]
    exact hs.allocate (State.lowestFree_eq_some.mp hn).1 (fun m => State.allocate_get ..) rfl rfl rfl
  | submit _ hc =>
    obtain ⟨-, -, hrecs, -⟩ := submitRefusal_none hc
    have h0 := recordsSound_iff.mp hs
    refine TableSound.pins h0 fun m => ⟨_, RecordTable.pin_get s.rtb s.cq.staging.refs m, fun hm => ?_⟩
    rw [if_neg fun hin => hm (sealed_of_recordsOk hrecs hin)]
    rfl
  | flushOne => exact unpin_records hs rfl rfl
  | release m _ hm => exact TableSound.releaseSealed (recordsSound_iff.mp hs) hm fun k => State.freeRec_get ..
  | resume m _ hm _ ha =>
    rw [recordsSound_iff, ha] at hs
    rw [recordsSound_iff]
    show TableSound _ _ (s.acq.cfg.entry m).openRec
    rw [entry_running]
    refine (hs.release (n := m) (.inl rfl) fun k => State.freeRec_get ..).allocate ?_ (fun k => State.allocate_get ..)
      rfl rfl rfl
    rw [State.freeRec_get, if_pos rfl]; rfl
  | gap n ho =>
    have hopen := (hs.1 n).mpr ho
    obtain ⟨hpins, htrunc⟩ := hs.2.2.2.2 n hopen
    rw [recordsSound_iff, ho] at hs
    rw [recordsSound_iff]
    show TableSound _ _ s.acq.state.openRec
    rw [ho]
    exact hs.modify (fun m => State.setRec_get ..) hopen hpins htrunc
  | commit row _ hrun =>
    obtain ⟨n, ho⟩ := openRec_of_running hrun
    exact (commitRecord_committed row ho).records hs ho
  | ringBusy => exact unpin_records hs rfl rfl
  | engine h =>
    obtain ⟨r, r', -, -, hgo⟩ := h.goes
    cases hgo with
    | on => exact hs
    | answered => exact unpin_records hs rfl rfl
  | _ => exact hframe (by simp) (by simp)

/-- Settles O15: over the moves of every other command no SEALED descriptor is released. -/
theorem sealedRecordsStay : Obligations.SealedRecordsStay := by
  intro c n s t hs hw hrls hpower h hn
  have hreleased : Part.released ∉ touched c := by
    cases c with
    | rls m => exact absurd rfl (hrls m)
    | powerOnReset held gate edges => exact absurd rfl (hpower held gate edges)
    | _ => simp [touched]
  have hstay : RecordsSound t ∧ SealedStay s t := by
    have hmoves := exec_moves hw t h
    clear h
    induction hmoves with
    | refl => exact ⟨hs, .of_eq rfl⟩
    | tail _ hlast ih =>
      obtain ⟨cs, hsub, hm⟩ := hlast
      exact ⟨hm.records ih.1, ih.2.trans (hm.sealedStay (fun hin => hreleased (hsub hin)) ih.1)⟩
  exact hstay.2 n hn

end Sys2Proof.Machine.Steps
end

section
/-! SUPPORT. The pin counts, move by move. -/

namespace Sys2Proof.Machine.Steps

variable {s t u : State}

/-! ## A command within its bounds (R91, R97, R104, R105) -/

/-- The three checks of a queued or running command as the records stand. -/
def Admitted (c : Staged) (rtb : RecordTable) : Prop :=
  c.kindOk = true ∧ c.rectOk rtb = true ∧ c.recordsOk rtb = true

theorem pinsSound_iff :
    PinsSound s ↔
      (∀ n : Fin 8, s.rtb.recs[n].pins = (holders s).countP fun c => decide (n ∈ c.refs)) ∧
        ∀ c ∈ holders s, Admitted c s.rtb := Iff.rfl

/-- A relative rectangle that a command uses names one of its records. -/
theorem record_mem_refs {c : Staged} {q : Coord} (hq : q ∈ c.rects) (hrel : q.relative = true) : q.record ∈ c.refs := by
  unfold Staged.refs
  simp only [List.mem_map, List.mem_filter]
  exact ⟨q, ⟨hq, hrel⟩, rfl⟩

/-- A command stays admitted while STATE and LENGTH of its records stay (R97). -/
theorem Admitted.congr {c : Staged} {rtb rtb' : RecordTable} (h : Admitted c rtb)
    (hr : ∀ n ∈ c.refs, rtb'.recs[n].state = rtb.recs[n].state ∧ rtb'.recs[n].length = rtb.recs[n].length) :
    Admitted c rtb' := by
  obtain ⟨hkind, hrect, hrecs⟩ := h
  have hfits : ∀ q ∈ c.rects, q.fits rtb' c.w c.h = q.fits rtb c.w c.h := fun q hq => by
    unfold Coord.fits
    by_cases hrel : q.relative = true
    · obtain ⟨e1, e2⟩ := hr q.record (record_mem_refs hq hrel)
      rw [e1, e2]
    · simp only [hrel, Bool.false_eq_true, if_false]
  refine ⟨hkind, ?_, ?_⟩
  · unfold Staged.rectOk at hrect ⊢
    rw [Bool.and_eq_true, List.all_eq_true] at hrect ⊢
    exact ⟨hrect.1, fun q hq => (hfits q hq).trans (hrect.2 q hq)⟩
  · unfold Staged.recordsOk at hrecs ⊢
    rw [List.all_eq_true] at hrecs ⊢
    intro n hn
    rw [(hr n hn).1]
    exact hrecs n hn

/-- A command stays admitted while its records keep their fields but PINS. -/
theorem Admitted.of_stay {c : Staged} {rtb rtb' : RecordTable} (h : Admitted c rtb)
    (hr : ∀ n ∈ c.refs, rtb.recs[n].state = .sealed →
      { rtb'.recs[n] with pins := 0 } = { rtb.recs[n] with pins := 0 }) : Admitted c rtb' :=
  h.congr fun n hn => by
    have e := hr n hn (sealed_of_recordsOk h.2.2 hn)
    exact ⟨(congrArg Descriptor.state e :), (congrArg Descriptor.length e :)⟩

/-! ## The holders of a pin -/

/-- No pin changes. -/
def PinsStay (s t : State) : Prop := ∀ n : Fin 8, t.rtb.recs[n].pins = s.rtb.recs[n].pins

theorem PinsStay.trans (h : PinsStay s t) (k : PinsStay t u) : PinsStay s u := fun n => (k n).trans (h n)

theorem pinsSound_of_stay (hs : PinsSound s) (hh : holders t = holders s) (hp : PinsStay s t) (hr : SealedStay s t) :
    PinsSound t := by
  rw [pinsSound_iff] at hs ⊢
  obtain ⟨hcount, hadm⟩ := hs
  rw [hh]
  exact ⟨fun n => (hp n).trans (hcount n), fun c hc => (hadm c hc).of_stay fun n _ => hr n⟩

/-- A command is answered: it holds its records no more (R92). -/
theorem pinsSound_of_unpin {c : Staged} (hs : PinsSound s) (hh : (holders s).Perm (c :: holders t))
    (hr : t.rtb = s.rtb.unpin c.refs) : PinsSound t := by
  rw [pinsSound_iff] at hs ⊢
  obtain ⟨hcount, hadm⟩ := hs
  refine ⟨fun n => ?_, fun d hd => (hadm d (hh.mem_iff.mpr (List.mem_cons_of_mem _ hd))).of_stay fun n _ => ?_⟩
  · have h := hcount n
    rw [hh.countP_eq, List.countP_cons] at h
    rw [hr, RecordTable.unpin_get]
    show s.rtb.recs[n].pins - (if n ∈ c.refs then 1 else 0) = _
    by_cases hn : n ∈ c.refs
    · simp only [hn, if_true, decide_true] at h ⊢; omega
    · simpa [hn] using h
  · rw [hr, RecordTable.unpin_get]
    exact fun _ => rfl

/-- A pin count of 0 says that no command references the record (R91). -/
theorem not_mem_refs_of_pins {m : Fin 8} (hs : PinsSound s) (hp : s.rtb.recs[m].pins = 0) {c : Staged}
    (hc : c ∈ holders s) : m ∉ c.refs := by
  obtain ⟨hcount, -⟩ := hs
  have h := (hcount m).symm.trans hp
  rw [List.countP_eq_zero] at h
  simpa using h c hc

/-! ## Pins through the changes of the record table -/

theorem endRecord_pinsStay (hs : RecordsSound s) : PinsStay s s.endRecord := by
  have hopen : ∀ m, s.acq.state.openRec = some m → s.rtb.recs[m].pins = 0 := fun m hm => by
    obtain ⟨h1, -, -, -, h5⟩ := hs
    exact (h5 m ((h1 m).mpr hm)).1
  intro n
  unfold State.endRecord
  split
  case h_4 => rfl
  case h_1 m hm | h_2 m hm =>
    rw [State.freeRec_get]
    split
    · next h => rw [h, hopen m (by rw [hm]; rfl)]; rfl
    · rfl
  case h_3 m hm =>
    rw [State.sealRec_get]
    split
    · next h => rw [h, hopen m (by rw [hm]; rfl)]
    · rfl

theorem allocate_pinsStay {k : Fin 8} (hk : s.rtb.recs[k].pins = 0) : PinsStay s (s.allocate k) := fun n => by
  rw [State.allocate_get]
  split
  · next h => rw [h, hk]; rfl
  · rfl

theorem Continued.pinsStay (h : Continued s t) (hfree : ∀ n : Fin 8, s.rtb.recs[n].state = .free → s.rtb.recs[n].pins = 0) :
    PinsStay s t := by
  cases h with
  | idle => exact fun _ => rfl
  | again k hk => exact allocate_pinsStay (hfree k (State.lowestFree_eq_some.mp hk).1)
  | starved => exact fun _ => rfl

theorem setRec_pinsStay {n : Fin 8} {d : Descriptor} (hd : d.pins = s.rtb.recs[n].pins) : PinsStay s (s.setRec n d) :=
  fun m => by
    rw [State.setRec_get]
    split
    · next h => rw [h, hd]
    · rfl

theorem Full.opened {row : List Word} {n : Fin 8} {d : Descriptor} (h : Full s row n d) :
    d.pins = s.rtb.recs[n].pins := by
  cases h <;> rfl

theorem Committed.pinsStay {row : List Word} {n : Fin 8} (h : Committed s row n t) (hs : RecordsSound s)
    (ho : s.acq.state.openRec = some n) : PinsStay s t := by
  have hopen : s.rtb.recs[n].pins = 0 := by
    obtain ⟨h1, -, -, -, h5⟩ := hs
    exact (h5 n ((h1 n).mpr ho)).1
  cases h with
  | grown d st e hd =>
    intro m
    show ((commitRow s row).setRec n d).rtb.recs[m].pins = (commitRow s row).rtb.recs[m].pins
    exact setRec_pinsStay (s := commitRow s row) hd.opened.2.1 m
  | sealed d f hd hf hv =>
    have hset : PinsStay s ((commitRow s row).setRec n d) := setRec_pinsStay (s := commitRow s row) hd.opened
    have hget : ∀ m : Fin 8, ((((commitRow s row).setRec n d).setSticky f).sealRec n false).rtb.recs[m] =
        if m = n then { ((commitRow s row).setRec n d).rtb.recs[n] with state := .sealed, truncated := false, pins := 0 }
        else ((commitRow s row).setRec n d).rtb.recs[m] := fun m => State.sealRec_get ..
    have hseal : PinsStay s ((((commitRow s row).setRec n d).setSticky f).sealRec n false) := fun m => by
      rw [hget]
      split
      · next h => rw [h, hopen]
      · exact hset m
    refine PinsStay.trans hseal (hv.pinsStay fun m hm => ?_)
    rw [hseal m]
    refine pins_zero hs fun hsealed => ?_
    rw [hget] at hm
    split at hm
    · cases hm
    · next hmn =>
      rw [State.setRec_get, if_neg hmn] at hm
      have hm' : s.rtb.recs[m].state = .free := hm
      rw [hsealed] at hm'
      cases hm'

/-! ## The moves -/

theorem holders_frame (hq : t.cq.queue = s.cq.queue) (hb : t.ble = s.ble) : holders t = holders s := by
  rw [holders, holders, hq, hb]

theorem holders_running {r : Running} (hr : s.ble.running = some r) : holders s = s.cq.queue ++ [r.cmd] := by
  rw [holders, hr]; rfl

theorem holders_idle (hb : s.ble = .idle) : holders s = s.cq.queue := by
  rw [holders, hb]
  exact List.append_nil _

theorem EngineGoes.pins {r r' : Running} (h : EngineGoes s r' t) (hr : s.ble.running = some r) (hc : r'.cmd = r.cmd)
    (hs : PinsSound s) : PinsSound t := by
  have hh := holders_running hr
  rw [← hc] at hh
  cases h with
  | on e x he =>
    refine pinsSound_of_stay hs ?_ (fun _ => rfl) (.of_eq rfl)
    rw [hh]
    exact holders_running (s := { s with ble := e, xf := x }) he
  | answered st p d x =>
    refine pinsSound_of_unpin (c := r'.cmd) hs ?_ rfl
    rw [hh, holders_idle rfl]
    exact List.perm_append_singleton ..

theorem Move.pins {cs : List Part} (h : Move s cs t) (hrecs : RecordsSound s) (hs : PinsSound s) : PinsSound t := by
  have hframe : Part.rtb ∉ cs → Part.cq ∉ cs → Part.ble ∉ cs → PinsSound t := fun h1 h2 h3 => by
    have e1 : t.rtb = s.rtb := h.kept h1
    have e2 : t.cq = s.cq := h.kept h2
    have e3 : t.ble = s.ble := h.kept h3
    rwa [PinsSound, holders_frame (by rw [e2]) e3, e1]
  cases h with
  | powerOn => exact ⟨fun n => by simp [State.powerOn, Descriptor.free, holders, Engine.running], fun c hc => by cases hc⟩
  | softReset =>
    refine ⟨fun n => ?_, fun c hc => by cases hc⟩
    rw [softReset_rtb, RecordTable.unpinAll_get]
    rfl
  | arm n _ hc hn =>
    have hfree := (State.lowestFree_eq_some.mp hn).1
    exact pinsSound_of_stay hs rfl (allocate_pinsStay (pins_zero hrecs fun h => absurd (hfree.symm.trans h) (by decide))) (allocate_sealedStay hn)
  | stop =>
    exact pinsSound_of_stay hs (holders_frame (by simp) (by simp)) (endRecord_pinsStay hrecs) (endRecord_sealedStay hrecs)
  | submit _ hc =>
    obtain ⟨hkind, hrect, hsealed, -⟩ := submitRefusal_none hc
    obtain ⟨hcount, hadm⟩ := pinsSound_iff.mp hs
    have hperm : (holders (submitEffect s)).Perm (s.cq.staging :: holders s) := by
      show ((s.cq.queue ++ [s.cq.staging]) ++ s.ble.running.toList.map (·.cmd)).Perm _
      rw [List.append_assoc]
      exact List.perm_middle
    have hget : ∀ n : Fin 8, (submitEffect s).rtb.recs[n] =
        { s.rtb.recs[n] with pins := s.rtb.recs[n].pins + if n ∈ s.cq.staging.refs then 1 else 0 } := fun n =>
      RecordTable.pin_get ..
    refine pinsSound_iff.mpr ⟨fun n => ?_, fun c hc => ?_⟩
    · rw [hperm.countP_eq, List.countP_cons, ← hcount n, hget]
      simp
    · have hadm' : Admitted c s.rtb := by
        rcases List.mem_cons.mp (hperm.mem_iff.mp hc) with rfl | hc
        · exact ⟨hkind, hrect, hsealed⟩
        · exact hadm c hc
      exact hadm'.of_stay fun n _ _ => by rw [hget]
  | stage => exact hs
  | flushOne c rest hq =>
    refine pinsSound_of_unpin (c := c) hs ?_ rfl
    show (s.cq.queue ++ _).Perm (c :: (s.cq.queue.tail ++ _))
    rw [hq]
    exact .refl _
  | pop => exact hs
  | release m _ hm hp =>
    obtain ⟨hcount, hadm⟩ := pinsSound_iff.mp hs
    refine pinsSound_iff.mpr ⟨fun n => ?_, fun c hc => (hadm c hc).of_stay fun n hn _ => ?_⟩
    · refine Eq.trans ?_ (hcount n)
      rw [State.freeRec_get]
      split
      · next h => rw [h, hp]; rfl
      · rfl
    · rw [State.freeRec_get, if_neg]
      rintro rfl
      exact not_mem_refs_of_pins hs hp hc hn
  | resume m _ hm hp =>
    have hget : ∀ n : Fin 8, ((s.freeRec m).allocate m).startTimer.rtb.recs[n] =
        if n = m then Descriptor.fresh s.acq.writer s.acq.cfg.listLength else s.rtb.recs[n] := fun n => by
      show ((s.freeRec m).allocate m).rtb.recs[n] = _
      rw [State.allocate_get]
      by_cases hn : n = m
      · rw [if_pos hn, if_pos hn]; rfl
      · rw [if_neg hn, if_neg hn, State.freeRec_get, if_neg hn]
    obtain ⟨hcount, hadm⟩ := pinsSound_iff.mp hs
    refine pinsSound_iff.mpr ⟨fun n => ?_, fun c hc => (hadm c hc).of_stay fun n hn _ => ?_⟩
    · refine Eq.trans ?_ (hcount n)
      rw [hget]
      split
      · next h => rw [h, hp]; rfl
      · rfl
    · rw [hget, if_neg]
      rintro rfl
      exact not_mem_refs_of_pins hs hp hc hn
  | gap n ho =>
    refine pinsSound_of_stay hs rfl (setRec_pinsStay rfl) (.of_others (n := n) ?_ fun m hm => ?_)
    · rw [(hrecs.1 n).mpr ho]; decide
    · rw [State.setRec_get, if_neg hm]
  | commit row hp hrun hsw hw =>
    have hm : Move s _ _ := .commit row hp hrun hsw hw
    obtain ⟨n, ho⟩ := openRec_of_running hrun
    have hcommit := commitRecord_committed row ho
    have e2 : (commitRecord s row).cq = s.cq := hm.kept (p := .cq) (by simp)
    refine pinsSound_of_stay hs (holders_frame (by rw [e2]) (hm.kept (p := .ble) (by simp)))
      (hcommit.pinsStay hrecs ho) (hcommit.sealedStay ?_)
    rw [(hrecs.1 n).mpr ho]; decide
  | ringBusy c rest hb hq =>
    refine pinsSound_of_unpin (c := c) hs ?_ rfl
    rw [holders_idle hb, hq, holders_idle rfl]
    exact .refl _
  | start c rest hb hq =>
    obtain ⟨e1, -, e3, -⟩ := startCommand_kept ({ s with cq := { s.cq with queue := rest }, rq := s.rq ++ [.pending] }) c
    have hh : (holders (startCommand { s with cq := { s.cq with queue := rest }, rq := s.rq ++ [.pending] } c)).Perm
        (holders s) := by
      rw [holders_idle hb, hq, holders_running (startCommand_running _ c), e1]
      exact List.perm_append_singleton ..
    obtain ⟨hcount, hadm⟩ := pinsSound_iff.mp hs
    rw [pinsSound_iff, e3]
    exact ⟨fun n => (hcount n).trans (hh.countP_eq _).symm, fun d hd => hadm d (hh.mem_iff.mp hd)⟩
  | engine h =>
    obtain ⟨r, r', hr, hc, hgo⟩ := h.goes
    exact hgo.pins hr hc hs
  | _ => exact hframe (by simp) (by simp) (by simp)

/-- Settles O10: the record table move by move, and the pins with it. -/
theorem recordsAndPinsKept : Obligations.RecordsAndPinsKept := fun _ _ hs h =>
  ⟨step_keeps Move.records h hs, fun hp =>
    (step_keeps (P := fun u => RecordsSound u ∧ PinsSound u) (fun hm hu => ⟨hm.records hu.1, hm.pins hu.1 hu.2⟩) h
      ⟨hs, hp⟩).2⟩

end Sys2Proof.Machine.Steps
end

section
/-! SUPPORT. The transfer FIFO, the timeout and the element in progress, move by move. -/

namespace Sys2Proof.Machine.Steps

variable {s t u : State}

/-! ## XF and the running command, by the engine state (R137, R144 to R146, R151) -/

/-- What RUN asks of XF and the running command. -/
def RunSound (x : TransferFifo) (r : Running) : Prop :=
  CommandSound r.cmd ∧ ElementSound r ∧ r.progress < r.cmd.total ∧ x.timeout = none ∧
    (if r.cmd.kind = some .xrd then
      r.fetched = r.progress + x.words.length ∧ r.fetched < r.cmd.total ∧ x.words.length < Config.fifoDepth
    else if r.cmd.kind = some .xwr then x.words ≠ [] ∧ x.words.length ≤ r.capacity r.cmd.total
    else x.words = [])

/-- What XWAIT asks of XF and the running command. -/
def WaitSound (x : TransferFifo) (r : Running) : Prop :=
  CommandSound r.cmd ∧ r.begun = false ∧ r.aborting = false ∧ r.progress < r.cmd.total ∧
    (∀ n ∈ x.timeout, 1 ≤ n ∧ n ≤ 16711680) ∧
    (if r.cmd.kind = some .xrd then
      r.fetched = r.progress + x.words.length ∧ r.fetched ≤ r.cmd.total ∧ x.words ≠ [] ∧
        x.words.length ≤ Config.fifoDepth ∧ (x.words.length = Config.fifoDepth ∨ r.fetched = r.cmd.total)
    else r.cmd.kind = some .xwr ∧ x.words = [])

/-- What the engine state asks of XF. -/
def EngineSound (x : TransferFifo) (e : Engine) : Prop :=
  match e with
  | .idle => x.words = [] ∧ x.timeout = none
  | .run r => RunSound x r
  | .xwait r => WaitSound x r

theorem transferSound_iff : TransferSound s ↔ (∀ c ∈ s.cq.queue, CommandSound c) ∧ EngineSound s.xf s.ble := by
  unfold TransferSound EngineSound
  cases s.ble <;> exact Iff.rfl

theorem engineSound_emptyXf (x : TransferFifo) : EngineSound { x with words := [], timeout := none } .idle := ⟨rfl, rfl⟩

/-- With no element in progress and no ABORT waiting, nothing is asked of the element. -/
theorem elementSound_of_not_begun {r : Running} (hb : r.begun = false) (ha : r.aborting = false) : ElementSound r := by
  have hreads : r.reads = [] := by
    simp only [Running.begun, Bool.or_eq_false_iff, Bool.not_eq_false', List.isEmpty_iff] at hb
    exact hb.2
  simp [ElementSound, hreads, ha]

/-- A count that XWAIT loads is 1 to 255 units (R151). -/
theorem timeoutStart_range (s : State) : ∀ n ∈ s.timeoutStart, 1 ≤ n ∧ n ≤ 16711680 := by
  intro n hn
  unfold State.timeoutStart at hn
  split at hn
  · cases hn
  · next h =>
    obtain rfl : _ = n := Option.some.inj hn
    have hne : s.acq.cfg.timeout.toNat ≠ 0 := fun h0 => h (BitVec.eq_of_toNat_eq h0)
    have hlt := s.acq.cfg.timeout.isLt
    simp only [Config.timeoutUnit]
    omega

theorem total_pos {c : Staged} (h : CommandSound c) : 0 < c.total ∧ c.h ≤ c.total := by
  obtain ⟨-, hw, -, hh, -⟩ := h
  exact ⟨Nat.mul_pos hw hh, Nat.le_mul_of_pos_left _ hw⟩

/-! ## The moves of the engine -/

theorem EngineMove.queue (h : EngineMove s t) : t.cq.queue = s.cq.queue := by
  obtain ⟨r, r', -, -, hgo⟩ := h.goes
  cases hgo <;> rfl

theorem EngineSound.run {x : TransferFifo} {e : Engine} {r : Running} (h : EngineSound x e) (he : e = .run r) :
    RunSound x r := by
  rw [he] at h
  exact h

/-- The end of an element of MOVE, FILL, SRCH or RDUC (R138, R140). -/
theorem endElement_sound {r r' : Running} {answer : Option (Status × Detail)} (h : RunSound s.xf r)
    (hk : r.cmd.kind ≠ some .xrd ∧ r.cmd.kind ≠ some .xwr) (hcmd : r'.cmd = r.cmd) (hp : r'.progress = r.progress + 1)
    (hr : r'.reads = []) (hn : answer = none → r.progress + 1 < r.cmd.total ∨ r.progress + 1 < r.cmd.h) :
    EngineSound (s.endElement r' answer).xf (s.endElement r' answer).ble := by
  obtain ⟨hcommand, -, -, htimeout, hwords⟩ := h
  simp only [hk.1, hk.2, if_false] at hwords
  unfold State.endElement
  split
  · exact engineSound_emptyXf _
  · next ha =>
    split
    · exact ⟨hwords, htimeout⟩
    · have hlast := (total_pos hcommand).2
      have hlt : r'.progress < r'.cmd.total := by
        rcases hn rfl with h | h <;> rw [hp, hcmd] <;> omega
      refine ⟨hcmd ▸ hcommand, by simp [ElementSound, hr, ha], hlt, htimeout, ?_⟩
      simp only [hcmd, hk.1, hk.2, if_false]
      exact hwords

/-- What follows an XRD source read (R137, R145). -/
theorem afterRead_sound {r : Running} {w : Word} (h : RunSound s.xf r) (hk : r.cmd.kind = some .xrd) :
    EngineSound (afterRead s { r with fetched := r.fetched + 1, busy := false } (s.xf.words ++ [w])).xf
      (afterRead s { r with fetched := r.fetched + 1, busy := false } (s.xf.words ++ [w])).ble := by
  obtain ⟨hcommand, ⟨-, hreads, -, -⟩, hprogress, -, hwords⟩ := h
  simp only [hk, if_true] at hwords
  obtain ⟨hfetched, hmore, hroom⟩ := hwords
  replace hreads := hreads (by simp [hk])
  have hlen : (s.xf.words ++ [w]).length = s.xf.words.length + 1 := by simp
  simp only [Config.fifoDepth] at hroom
  unfold afterRead
  split
  · exact engineSound_emptyXf _
  · next ha =>
    replace ha : r.aborting = false := by simpa using ha
    split
    · next hwait =>
      simp only [hlen, Config.fifoDepth] at hwait
      refine ⟨hcommand, by simp [Running.begun, hreads], ha, hprogress, timeoutStart_range s, ?_⟩
      simp only [hk, if_true, State.toXwait_xf, hlen, Config.fifoDepth]
      refine ⟨by omega, by omega, by simp, by omega, by omega⟩
    · next hrun =>
      simp only [hlen, Config.fifoDepth] at hrun
      refine ⟨hcommand, by simp [ElementSound, hreads, ha], hprogress, rfl, ?_⟩
      simp only [hk, if_true, State.toRun_xf, hlen, Config.fifoDepth]
      refine ⟨by omega, by omega, by omega⟩

/-- What follows an XWR destination write (R137, R146). -/
theorem afterWrite_sound {r : Running} {w : Word} {rest : List Word} (h : RunSound s.xf r) (hk : r.cmd.kind = some .xwr)
    (hw : s.xf.words = w :: rest) :
    EngineSound (afterWrite s r.complete rest).xf (afterWrite s r.complete rest).ble := by
  obtain ⟨hcommand, -, hprogress, -, hwords⟩ := h
  simp only [hk, reduceCtorEq, Option.some.injEq, if_false, if_true, hw] at hwords
  obtain ⟨-, hcap⟩ := hwords
  rw [Running.capacity, List.length_cons] at hcap
  have hcap' := Nat.le_min.mp hcap
  simp only [Config.fifoDepth] at hcap'
  unfold afterWrite
  split
  · exact engineSound_emptyXf _
  · next ha =>
    replace ha : r.aborting = false := by simpa [Running.complete] using ha
    split
    · exact engineSound_emptyXf _
    · next hmore =>
      replace hmore : r.progress + 1 < r.cmd.total := Nat.lt_of_not_le hmore
      split
      · next hempty =>
        refine ⟨hcommand, rfl, ha, hmore, timeoutStart_range s, ?_⟩
        simp [Running.complete, hk, hempty]
      · next hne =>
        refine ⟨hcommand, by simp [ElementSound, Running.complete, ha], hmore, rfl, ?_⟩
        simp only [Running.complete, hk, reduceCtorEq, Option.some.injEq, if_false, if_true, State.toRun_xf]
        refine ⟨hne, Nat.le_min.mpr ⟨?_, ?_⟩⟩
        · simp only [Config.fifoDepth]; omega
        · show rest.length ≤ r.cmd.total - (r.progress + 1)
          omega

/-- What an XRD with a word in XF is, in RUN or in XWAIT: in RUN a source element remains, in XWAIT no element is in
progress. -/
theorem EngineSound.xrd {x : TransferFifo} {e : Engine} {r : Running} (h : EngineSound x e) (hr : e.running = some r)
    (hk : r.cmd.kind = some .xrd) :
    CommandSound r.cmd ∧ ElementSound r ∧ r.progress < r.cmd.total ∧ r.fetched = r.progress + x.words.length ∧
      r.fetched ≤ r.cmd.total ∧ x.words.length ≤ Config.fifoDepth ∧
      ((r.fetched < r.cmd.total ∧ x.words.length < Config.fifoDepth) ∨ (r.begun = false ∧ r.aborting = false)) := by
  cases e with
  | idle => cases hr
  | run q =>
    obtain rfl : q = r := Option.some.inj hr
    obtain ⟨h1, h2, h3, -, h5⟩ := h
    simp only [hk, if_true] at h5
    obtain ⟨k1, k2, k3⟩ := h5
    exact ⟨h1, h2, h3, k1, k2.le, k3.le, .inl ⟨k2, k3⟩⟩
  | xwait q =>
    obtain rfl : q = r := Option.some.inj hr
    obtain ⟨h1, h2, h3, h4, -, h6⟩ := h
    simp only [hk, if_true] at h6
    obtain ⟨k1, k2, -, k4, -⟩ := h6
    exact ⟨h1, elementSound_of_not_begun h2 h3, h4, k1, k2, k4, .inr ⟨h2, h3⟩⟩

/-- What follows a word that the host takes of an XRD (R148). -/
theorem afterTake_sound {r : Running} {w : Word} {rest : List Word} (h : EngineSound s.xf s.ble)
    (hr : s.ble.running = some r) (hk : r.cmd.kind = some .xrd) (hw : s.xf.words = w :: rest) :
    EngineSound
      (afterTake { s with xf := { s.xf with last := w } } { r with progress := r.progress + 1 } rest).xf
      (afterTake { s with xf := { s.xf with last := w } } { r with progress := r.progress + 1 } rest).ble := by
  obtain ⟨hcommand, helement, hprogress, hfetched, hmax, hdepth, hstate⟩ := h.xrd hr hk
  rw [hw, List.length_cons] at hfetched hdepth hstate
  simp only [Config.fifoDepth] at hdepth hstate
  unfold afterTake
  split
  · exact engineSound_emptyXf _
  · next hmore =>
    replace hmore : r.progress + 1 < r.cmd.total := Nat.lt_of_not_le hmore
    split
    · next hroom =>
      refine ⟨hcommand, helement, hmore, rfl, ?_⟩
      simp only [hk, if_true, State.toRun_xf]
      refine ⟨?_, hroom.2, hroom.1⟩
      show r.fetched = r.progress + 1 + rest.length
      omega
    · next hfull =>
      have hfull' : ¬(rest.length < 4 ∧ r.fetched < r.cmd.total) := hfull
      obtain ⟨hbegun, habort⟩ : r.begun = false ∧ r.aborting = false := by
        rcases hstate with h | h
        · omega
        · exact h
      refine ⟨hcommand, hbegun, habort, hmore, timeoutStart_range _, ?_⟩
      simp only [hk, if_true, State.toXwait_xf, Config.fifoDepth]
      refine ⟨?_, hmax, ?_, by omega, .inr ?_⟩
      · show r.fetched = r.progress + 1 + rest.length
        omega
      · rintro rfl
        simp at hfetched hfull'
        omega
      · show r.fetched = r.cmd.total
        omega

/-- The host gives a word to an XWR with room (R149). -/
theorem feed_sound {r : Running} {w : Word} (h : EngineSound s.xf s.ble) (hr : s.ble.running = some r)
    (hk : r.cmd.kind = some .xwr) (hl : s.xf.words.length < r.capacity r.cmd.total) :
    EngineSound (s.toRun r (s.xf.words ++ [w])).xf (s.toRun r (s.xf.words ++ [w])).ble := by
  have hparts : CommandSound r.cmd ∧ ElementSound r ∧ r.progress < r.cmd.total := by
    cases hb : s.ble with
    | idle => rw [hb] at hr; cases hr
    | run q =>
      rw [hb] at hr h
      obtain rfl : q = r := Option.some.inj hr
      exact ⟨h.1, h.2.1, h.2.2.1⟩
    | xwait q =>
      rw [hb] at hr h
      obtain rfl : q = r := Option.some.inj hr
      obtain ⟨h1, h2, h3, h4, -⟩ := h
      exact ⟨h1, elementSound_of_not_begun h2 h3, h4⟩
  obtain ⟨hcommand, helement, hprogress⟩ := hparts
  refine ⟨hcommand, helement, hprogress, rfl, ?_⟩
  simp only [hk, reduceCtorEq, Option.some.injEq, if_false, if_true, State.toRun_xf]
  exact ⟨by simp, by simpa using hl⟩

theorem EngineMove.sound (h : EngineMove s t) (hs : EngineSound s.xf s.ble) : EngineSound t.xf t.ble := by
  cases h with
  | mark r hb hg =>
    obtain ⟨h1, ⟨k1, k2, k3, -⟩, h3⟩ := hs.run hb
    exact ⟨h1, ⟨k1, k2, k3, fun _ => hg⟩, h3⟩
  | answer => exact engineSound_emptyXf _
  | serve r hb =>
    obtain ⟨h1, ⟨k1, k2, k3, -⟩, h3⟩ := hs.run hb
    exact ⟨h1, ⟨k1, k2, k3, fun _ => by simp [Running.begun]⟩, h3⟩
  | wait r reads hb hk hne hl hc =>
    obtain ⟨h1, -, h3⟩ := hs.run hb
    exact ⟨h1, ⟨hl, fun h => absurd hk h, hc, fun _ => by simp [Running.begun, hne]⟩, h3⟩
  | element r r' answer hb hk hcmd hp hr _ hn => exact endElement_sound (hs.run hb) hk hcmd hp hr hn
  | read r w hb hk => exact afterRead_sound (hs.run hb) hk
  | write r w rest hb hk hw => exact afterWrite_sound (hs.run hb) hk hw
  | word r w rest hr hk hw => exact afterTake_sound hs hr hk hw
  | feed r w hr hk hl => exact feed_sound hs hr hk hl

/-! ## Every move -/

/-- A command to start has its first element to do (R120, R146). -/
theorem startCommand_sound {c : Staged} (hc : CommandSound c) (hwords : s.xf.words = []) (htimeout : s.xf.timeout = none) :
    EngineSound (startCommand s c).xf (startCommand s c).ble := by
  have hpos := (total_pos hc).1
  unfold startCommand
  split
  · next hk =>
    refine ⟨hc, rfl, rfl, hpos, timeoutStart_range s, ?_⟩
    simp [Running.start, hk, hwords]
  · next hk =>
    refine ⟨hc, by simp [ElementSound, Running.start], hpos, htimeout, ?_⟩
    simp [Running.start, hk, hwords, hpos]

theorem Move.transfer {cs : List Part} (h : Move s cs t) (hs : TransferSound s) : TransferSound t := by
  have hframe : Part.cq ∉ cs → Part.ble ∉ cs → Part.xf ∉ cs → TransferSound t := fun h1 h2 h3 => by
    have e1 : t.cq = s.cq := h.kept h1
    have e2 : t.ble = s.ble := h.kept h2
    have e3 : t.xf = s.xf := h.kept h3
    rwa [TransferSound, e1, e2, e3]
  obtain ⟨hqueue, hengine⟩ := transferSound_iff.mp hs
  rw [transferSound_iff]
  cases h with
  | powerOn => exact ⟨fun _ hc => absurd hc (List.not_mem_nil), rfl, rfl⟩
  | softReset => exact ⟨fun _ hc => absurd hc (List.not_mem_nil), rfl, rfl⟩
  | submit _ hc =>
    refine ⟨fun c hin => ?_, hengine⟩
    rcases List.mem_append.mp hin with hin | hin
    · exact hqueue c hin
    · obtain rfl := List.mem_singleton.mp hin
      obtain ⟨hkind, hrect, -⟩ := submitRefusal_none hc
      simp only [Staged.rectOk, Bool.and_eq_true, decide_eq_true_eq] at hrect
      exact ⟨hkind, hrect.1.1⟩
  | stage => exact ⟨hqueue, hengine⟩
  | flushOne => exact ⟨fun c hc => hqueue c (List.mem_of_mem_tail hc), hengine⟩
  | pop => exact ⟨hqueue, hengine⟩
  | ringBusy c rest hb hq =>
    rw [hb] at hengine
    exact ⟨fun d hd => hqueue d (hq ▸ List.mem_cons_of_mem _ hd), hengine⟩
  | start c rest hb hq =>
    rw [hb] at hengine
    obtain ⟨e1, -⟩ := startCommand_kept ({ s with cq := { s.cq with queue := rest }, rq := s.rq ++ [.pending] }) c
    refine ⟨fun d hd => ?_, startCommand_sound (hqueue c (hq ▸ List.mem_cons_self ..)) hengine.1 hengine.2⟩
    rw [e1] at hd
    exact hqueue d (hq ▸ List.mem_cons_of_mem _ hd)
  | engine h =>
    rw [h.queue]
    exact ⟨hqueue, h.sound hengine⟩
  | last w =>
    refine ⟨hqueue, ?_⟩
    cases hb : s.ble with
    | idle | run | xwait => rw [hb] at hengine; exact hengine
  | touch =>
    rw [State.touch_cq, State.touch_ble]
    refine ⟨hqueue, ?_⟩
    cases hb : s.ble with
    | idle | run => rw [hb] at hengine; simpa [State.touch, hb] using hengine
    | xwait r =>
      rw [hb] at hengine
      obtain ⟨h1, h2, h3, h4, -, h6⟩ := hengine
      simp only [State.touch, hb]
      exact ⟨h1, h2, h3, h4, timeoutStart_range s, h6⟩
  | timeoutTick n hn hlt =>
    refine ⟨hqueue, ?_⟩
    cases hb : s.ble with
    | idle => rw [hb] at hengine; rw [hengine.2] at hn; cases hn
    | run r => rw [hb] at hengine; rw [hengine.2.2.2.1] at hn; cases hn
    | xwait r =>
      rw [hb] at hengine
      obtain ⟨h1, h2, h3, h4, h5, h6⟩ := hengine
      refine ⟨h1, h2, h3, h4, fun k hk => ?_, h6⟩
      obtain rfl : n - 1 = k := Option.some.inj hk
      have := h5 n hn
      omega
  | _ => exact transferSound_iff.mp (hframe (by simp) (by simp) (by simp))

/-- Settles O9, move by move. -/
theorem ticketsAndTransferKept : Obligations.TicketsAndTransferKept := fun _ _ h =>
  ⟨step_keeps Move.tickets h, step_keeps Move.transfer h⟩

end Sys2Proof.Machine.Steps
end

section
/-! SUPPORT. No access leaves the sheet: every element of an admitted command has an address. -/

namespace Sys2Proof.Machine.Steps

variable {s t : State}

/-! ## Element positions inside the sheet (R1, R5, R6, R9) -/

theorem rowOf_lt {c : Staged} {k : Nat} (hk : k < c.total) : c.rowOf k < c.h := by
  have hdiv : k / c.w < c.h := Nat.div_lt_of_lt_mul hk
  unfold Staged.rowOf
  generalize k / c.w = d at hdiv ⊢
  split <;> omega

theorem colOf_lt {c : Staged} {k : Nat} (hk : k < c.total) : c.colOf k < c.w := by
  have hw : 0 < c.w := Nat.pos_of_ne_zero fun h => by simp [Staged.total, h] at hk
  have hmod := Nat.mod_lt k hw
  unfold Staged.colOf
  generalize k % c.w = d at hmod ⊢
  split <;> omega

/-- A row of a record is a ring row (R9). -/
theorem mapOffset_mem {cfg : AcqTable} (hl : 0 < cfg.ringLength) (d : Descriptor) (o : Nat) :
    cfg.ringBase ≤ mapOffset cfg d o ∧ mapOffset cfg d o < cfg.ringBase + cfg.ringLength := by
  have := Nat.mod_lt (d.start - cfg.ringBase + o) hl
  unfold mapOffset
  omega

/-- Every element of a rectangle that its command uses is a word of the sheet. -/
theorem elementAddr_some {c : Staged} {q : Coord} {k : Nat} (hr : RingSound s) (hrect : c.rectOk s.rtb = true)
    (hq : q ∈ c.rects) (hk : k < c.total) : ∃ a, c.elementAddr q s.acq.cfg s.rtb k = some a := by
  obtain ⟨h16, -, hbase, -, -⟩ := hr
  have hrow := rowOf_lt hk
  have hcol := colOf_lt hk
  simp only [Staged.rectOk, Bool.and_eq_true, List.all_eq_true, decide_eq_true_eq] at hrect
  have hfits := hrect.2 q hq
  simp only [Coord.fits, Bool.and_eq_true, decide_eq_true_eq, Config.sheetCols, Config.sheetRows] at hfits
  obtain ⟨hwidth, hheight⟩ := hfits
  have hline : (if q.relative then mapOffset s.acq.cfg s.rtb.recs[q.record] (q.line + c.rowOf k) else q.line + c.rowOf k)
      < 2048 := by
    split
    · have := (mapOffset_mem (by omega : 0 < s.acq.cfg.ringLength) s.rtb.recs[q.record] (q.line + c.rowOf k)).2
      omega
    · next hrel =>
      simp only [hrel, Bool.false_eq_true, if_false, decide_eq_true_eq] at hheight
      omega
  exact ⟨_, sheetAddr_eq_some.mpr ⟨hline, by omega, rfl⟩⟩

/-- The rectangles that a kind uses (R91). -/
theorem mem_rects {c : Staged} :
    (c.kind = some .move → c.source ∈ c.rects ∧ c.dest ∈ c.rects) ∧ (c.kind = some .fill → c.dest ∈ c.rects) ∧
      (c.kind = some .srch → c.source ∈ c.rects) ∧ (c.kind = some .rduc → c.source ∈ c.rects) ∧
      (c.kind = some .xrd → c.source ∈ c.rects) ∧ (c.kind = some .xwr → c.dest ∈ c.rects) := by
  refine ⟨?_, ?_, ?_, ?_, ?_, ?_⟩ <;> intro h <;> simp [Staged.rects, h]

/-- The next element of the running command, or an earlier source element of it, is inside. -/
theorem running_elementAddr {r : Running} {q : Coord} {k : Nat} (hs : StoreSound s) (hb : s.ble = .run r)
    (hq : q ∈ r.cmd.rects) (hk : k < r.cmd.total) : ∃ a, r.cmd.elementAddr q s.acq.cfg s.rtb k = some a := by
  obtain ⟨hring, -, -, hpins⟩ := hs
  have hmem : r.cmd ∈ holders s := by
    rw [holders_running (running_run hb)]
    exact List.mem_append_right _ (List.mem_singleton.mpr rfl)
  exact elementAddr_some hring ((pinsSound_iff.mp hpins).2 _ hmem).2.1 hq hk

/-- The running command in RUN has an element to do (R138). -/
theorem running_progress {r : Running} (hs : StoreSound s) (hb : s.ble = .run r) : r.progress < r.cmd.total := by
  obtain ⟨-, -, htransfer, -⟩ := hs
  exact ((transferSound_iff.mp htransfer).2.run hb).2.2.1

/-! ## Commands that go on -/

/-- The command does not fault. -/
def GoesOn (out : Out) : Prop := ∃ t, out = .next t

theorem GoesOn.next (t : State) : GoesOn (.next t) := ⟨t, rfl⟩

theorem GoesOn.unlessHeld {out : Out} (h : GoesOn out) : GoesOn (s.unlessHeld out) := by
  unfold State.unlessHeld
  split
  · exact .next s
  · exact h

theorem GoesOn.onElement {sel : Staged → Bool} {f : Running → State → Out}
    (h : ∀ r, s.ble = .run r → sel r.cmd = true → GoesOn (f r s)) : GoesOn (s.onElement sel f) := by
  rcases s.onElement_cases sel f with he | ⟨r, hr, hsel, -, he⟩
  · rw [he]; exact .next s
  · rw [he]; exact h r hr hsel

theorem GoesOn.between {r : Running} {next : Running → State → Out} (h : GoesOn (next r s)) : GoesOn (s.between r next) := by
  unfold State.between
  split
  · exact .next _
  · exact h

theorem execRowCommit_goesOn (hs : RingSound s) : GoesOn (execRowCommit s) := by
  obtain ⟨-, -, hbase, -, hwriter⟩ := hs
  refine GoesOn.unlessHeld ?_
  split
  · split
    · rw [if_pos (show s.acq.writer < Config.sheetRows by simp only [Config.sheetRows]; omega)]
      exact .next _
    · exact .next s
  · exact .next s

theorem execTake_goesOn (s : State) : GoesOn (execTake s) := by
  refine GoesOn.unlessHeld ?_
  split <;> exact .next _

theorem execSlotEnd_goesOn (codes : Vector Code 8) (s : State) : GoesOn (execSlotEnd codes s) := by
  refine GoesOn.unlessHeld ?_
  split
  · split <;> exact .next _
  · exact .next s

theorem execTransferTimeout_goesOn (s : State) : GoesOn (execTransferTimeout s) := by
  refine GoesOn.unlessHeld ?_
  split <;> exact .next _

theorem moveWrite_goesOn {op : MoveOp} {r : Running} {a b : Word} {k : Nat}
    (hd : r.cmd.elementAddr r.cmd.dest s.acq.cfg s.rtb r.progress = some k) : GoesOn (moveWrite op a b r s) := by
  rw [moveWrite, hd]
  exact .next _

theorem moveRest_goesOn {op : MoveOp} {r : Running} {a : Word} {k : Nat}
    (hd : r.cmd.elementAddr r.cmd.dest s.acq.cfg s.rtb r.progress = some k) : GoesOn (moveRest op a r s) := by
  unfold moveRest
  split
  · exact moveWrite_goesOn hd
  · rw [hd]
    exact .between (moveWrite_goesOn (r := { r with reads := [a, s.wordAt k] }) hd)

theorem execMove_goesOn (op : MoveOp) (hs : StoreSound s) : GoesOn (s.onElement (Staged.isMove op) (moveElement op)) :=
  .onElement fun r hb hsel => by
    simp only [Staged.isMove, Bool.and_eq_true, beq_iff_eq] at hsel
    obtain ⟨hsrc, hdst⟩ := (mem_rects (c := r.cmd)).1 hsel.1
    have hk := running_progress hs hb
    obtain ⟨a, ha⟩ := running_elementAddr hs hb hsrc hk
    obtain ⟨b, hd⟩ := running_elementAddr hs hb hdst hk
    unfold moveElement
    split
    · rw [ha]
      dsimp only
      split
      · exact .next _
      · exact .between (moveRest_goesOn (r := { r with reads := [s.wordAt a] }) hd)
    · exact moveRest_goesOn hd
    · exact moveWrite_goesOn hd

theorem execFill_goesOn (hs : StoreSound s) : GoesOn (execFill s) :=
  .onElement fun r hb hsel => by
    have hk : r.cmd.kind = some .fill := by simpa [Staged.isKind] using hsel
    obtain ⟨a, ha⟩ := running_elementAddr hs hb (mem_rects.2.1 hk) (running_progress hs hb)
    rw [fillElement, ha]
    exact .next _

theorem execSrch_goesOn (cond : Cond) (hs : StoreSound s) : GoesOn (s.onElement (Staged.isSrch cond) (srchElement cond)) :=
  .onElement fun r hb hsel => by
    simp only [Staged.isSrch, Bool.and_eq_true, beq_iff_eq] at hsel
    obtain ⟨a, ha⟩ := running_elementAddr hs hb (mem_rects.2.2.1 hsel.1) (running_progress hs hb)
    rw [srchElement, ha]
    exact .next _

theorem execRduc_goesOn (hs : StoreSound s) : GoesOn (execRduc s) :=
  .onElement fun r hb hsel => by
    have hk : r.cmd.kind = some .rduc := by simpa [Staged.isKind] using hsel
    obtain ⟨a, ha⟩ := running_elementAddr hs hb (mem_rects.2.2.2.1 hk) (running_progress hs hb)
    rw [rducElement, ha]
    exact .next _

theorem execXrd_goesOn (hs : StoreSound s) : GoesOn (execXrd s) :=
  .onElement fun r hb hsel => by
    have hk : r.cmd.kind = some .xrd := by simpa [Staged.isKind] using hsel
    unfold xrdElement
    split
    · next hmore =>
      obtain ⟨a, ha⟩ := running_elementAddr hs hb (mem_rects.2.2.2.2.1 hk) hmore.2
      rw [ha]
      exact .next _
    · exact .next s

theorem execXwr_goesOn (hs : StoreSound s) : GoesOn (execXwr s) :=
  .onElement fun r hb hsel => by
    have hk : r.cmd.kind = some .xwr := by simpa [Staged.isKind] using hsel
    obtain ⟨a, ha⟩ := running_elementAddr hs hb (mem_rects.2.2.2.2.2 hk) (running_progress hs hb)
    unfold xwrElement
    split
    · exact .next s
    · rw [ha]
      exact .next _

/-- From a sound state no command faults. -/
theorem exec_goesOn (c : Instr) (hs : StoreSound s) : GoesOn (exec c s) := by
  cases c with
  | powerOnReset => exact .next _
  | initSweepEnd => exact .unlessHeld (.next _)
  | srst => exact .unlessHeld (.next _)
  | arm => exact .unlessHeld (.next _)
  | stop => exact .unlessHeld (.next _)
  | trig => exact .unlessHeld (.next _)
  | submit => exact .unlessHeld (.next _)
  | abort => exact .unlessHeld (.next _)
  | flush => exact .unlessHeld (.next _)
  | pop => exact .unlessHeld (.next _)
  | rls => exact .unlessHeld (.next _)
  | badCodeRequest => exact .unlessHeld (.next _)
  | timerExpiry => exact .unlessHeld (.next _)
  | scanEdge => exact .unlessHeld (.next _)
  | gateChange => exact .unlessHeld (.next _)
  | trigEdge => exact .unlessHeld (.next _)
  | slotEnd codes => exact execSlotEnd_goesOn codes s
  | rowCommit => exact execRowCommit_goesOn hs.1
  | take => exact execTake_goesOn s
  | moveCopy | moveAdds | moveSubs | moveMin | moveMax | moveMean => exact execMove_goesOn _ hs
  | fill => exact execFill_goesOn hs
  | srchAbove | srchBelow | srchRise | srchFall | srchFlagged | srchMarked | srchVoided => exact execSrch_goesOn _ hs
  | rduc => exact execRduc_goesOn hs
  | xrd => exact execXrd_goesOn hs
  | xwr => exact execXwr_goesOn hs
  | xdataRead => exact .next _
  | xdataWrite => exact .unlessHeld (.next _)
  | transferTimeout => exact execTransferTimeout_goesOn s
  | tptrWrite => exact .unlessHeld (.next _)
  | tdataRead => exact .next _
  | tdataWrite => exact .unlessHeld (.next _)
  | eventsWrite => exact .unlessHeld (.next _)
  | enablesWrite => exact .unlessHeld (.next _)
  | windowWrite => exact .unlessHeld (.next _)

theorem Move.storeSound {cs : List Part} (h : Move s cs t) (hs : StoreSound s) : StoreSound t := by
  obtain ⟨hring, hrecs, htransfer, hpins⟩ := hs
  exact ⟨h.ring hring, h.records hrecs, h.transfer htransfer, h.pins hrecs hpins⟩

/-- Settles O6: no command faults, and every move keeps what makes it so. -/
theorem soundStoreNeverFaults : Obligations.SoundStoreNeverFaults := by
  intro s hs
  have hgoes : GoesOn (step s) := by
    cases hp : s.pending with
    | nil => rw [step_nil hp]; exact .next _
    | cons c rest =>
      rw [step_cons hp]
      exact exec_goesOn c hs
  obtain ⟨t, ht⟩ := hgoes
  exact ⟨t, ht, step_keeps Move.storeSound ht hs⟩

end Sys2Proof.Machine.Steps
end

section
/-! SUPPORT. The arcs of the held records and the shape of each, move by move. -/

namespace Sys2Proof.Machine.Steps

variable {s t u : State}

/-! ## Rows of the ring without remainders (R8, R9) -/

/-- A row of the ring. -/
def RingRow (cfg : AcqTable) (r : Nat) : Prop := cfg.ringBase ≤ r ∧ r < cfg.ringBase + cfg.ringLength

/-- A ring row lies inside an arc, counted from the arc's start with one wrap. -/
theorem holds_iff {cfg : AcqTable} {d : Descriptor} {r : Nat} (hd : RingRow cfg d.start) (hr : RingRow cfg r) :
    d.holds cfg r = true ↔ (if d.start ≤ r then r - d.start else r + cfg.ringLength - d.start) < d.length := by
  obtain ⟨h1, h2⟩ := hd
  obtain ⟨h3, h4⟩ := hr
  rw [Descriptor.holds, decide_eq_true_eq]
  split
  · rw [show r + cfg.ringLength - d.start = r - d.start + cfg.ringLength by omega, Nat.add_mod_right,
      Nat.mod_eq_of_lt (by omega)]
  · rw [Nat.mod_eq_of_lt (by omega)]

/-- The row at an offset of a record, with one wrap. -/
theorem mapOffset_eq {cfg : AcqTable} {d : Descriptor} {o : Nat} (hd : RingRow cfg d.start) (ho : o ≤ cfg.ringLength) :
    mapOffset cfg d o =
      if d.start + o < cfg.ringBase + cfg.ringLength then d.start + o else d.start + o - cfg.ringLength := by
  obtain ⟨h1, h2⟩ := hd
  unfold mapOffset
  split
  · rw [Nat.mod_eq_of_lt (by omega)]; omega
  · rw [Nat.mod_eq_sub_mod (by omega), Nat.mod_eq_of_lt (by omega)]; omega

/-! ## The layout of the held records -/

/-- A held record starts on a ring row, fits the ring and has columns (R8, R83). -/
def HeldShape (cfg : AcqTable) (d : Descriptor) : Prop :=
  cfg.ringBase ≤ d.start ∧ d.start < cfg.ringBase + cfg.ringLength ∧ d.length ≤ cfg.ringLength ∧ 1 ≤ d.columns ∧
    d.columns ≤ 16

/-- A record with its last row (R57, R88). -/
def FullShape (d : Descriptor) : Prop := d.length = d.pre + 1 + d.post ∧ d.causes.any = true

/-- A ring row lies inside at most one arc (R8). -/
def Apart (cfg : AcqTable) (recs : Fin 8 → Descriptor) : Prop :=
  ∀ m n : Fin 8, m ≠ n → (recs m).state ≠ .free → (recs n).state ≠ .free →
    ∀ r, cfg.ringBase ≤ r → r < cfg.ringBase + cfg.ringLength →
      ¬((recs m).holds cfg r = true ∧ (recs n).holds cfg r = true)

/-- The held records on the ring, with the open one, `o`, ending before the writer row. -/
def Laid (cfg : AcqTable) (writer : Nat) (recs : Fin 8 → Descriptor) (o : Option (Fin 8)) : Prop :=
  (∀ n, (recs n).state ≠ .free → HeldShape cfg (recs n)) ∧ (∀ n, (recs n).state = .sealed → FullShape (recs n)) ∧
    Apart cfg recs ∧ ∀ n, o = some n → writer = mapOffset cfg (recs n) (recs n).length

/-- The rows of the open record by the ACQ state (R57). -/
def OpenShape (cfg : AcqTable) (recs : Fin 8 → Descriptor) (st : AcqState) : Prop :=
  match st with
  | .pre n => (recs n).length < cfg.preCount ∧ (recs n).causes = Sources.none
  | .waittrig n => (recs n).length = cfg.preCount ∧ (recs n).causes = Sources.none
  | .post n =>
    (recs n).length = (recs n).pre + 1 + (recs n).post ∧ (recs n).pre ≤ cfg.preCount ∧ (recs n).post < cfg.postCount ∧
      (recs n).causes.any = true
  | _ => True

/-- No SEALED arc holds the writer row while a commit waits (R54). -/
def WaitClear (s : State) : Prop :=
  ∀ row, s.cnv.scan = .presented row → ∀ n : Fin 8, s.rtb.recs[n].state = .sealed →
    ¬s.rtb.recs[n].holds s.acq.cfg s.acq.writer = true

/-- The descriptors as a function. -/
def recsOf (s : State) (n : Fin 8) : Descriptor := s.rtb.recs[n]

/-- What the arcs and shapes rest on, with them. -/
def CaptureSound (s : State) : Prop :=
  RingSound s ∧ RecordsSound s ∧ ScanSound s ∧ Laid s.acq.cfg s.acq.writer (recsOf s) s.acq.state.openRec ∧
    OpenShape s.acq.cfg (recsOf s) s.acq.state ∧ WaitClear s

theorem waitClear_iff : WaitClear s ↔ ∀ row, s.cnv.scan = .presented row → s.blocked = false := by
  refine forall_congr' fun row => imp_congr_right fun _ => ?_
  rw [← Bool.not_eq_true, State.blocked_iff]
  simp

theorem shapes_arcs_iff :
    ShapesSound s ∧ ArcsSound s ↔
      Laid s.acq.cfg s.acq.writer (recsOf s) s.acq.state.openRec ∧ OpenShape s.acq.cfg (recsOf s) s.acq.state ∧
        WaitClear s := by
  have hopen : OpenShape s.acq.cfg (recsOf s) s.acq.state ↔
      match s.acq.state with
      | .pre n => s.rtb.recs[n].length < s.acq.cfg.preCount ∧ s.rtb.recs[n].causes = Sources.none
      | .waittrig n => s.rtb.recs[n].length = s.acq.cfg.preCount ∧ s.rtb.recs[n].causes = Sources.none
      | .post n =>
        s.rtb.recs[n].length = s.rtb.recs[n].pre + 1 + s.rtb.recs[n].post ∧
          s.rtb.recs[n].pre ≤ s.acq.cfg.preCount ∧ s.rtb.recs[n].post < s.acq.cfg.postCount ∧
          s.rtb.recs[n].causes.any = true
      | _ => True := by
    unfold OpenShape
    cases s.acq.state <;> exact Iff.rfl
  rw [waitClear_iff, hopen]
  unfold ShapesSound ArcsSound
  constructor
  · rintro ⟨⟨h1, h2, h3⟩, h4, h5, h6⟩
    exact ⟨⟨h1, h2, h4, h5⟩, h3, h6⟩
  · rintro ⟨⟨h1, h2, h4, h5⟩, h3, h6⟩
    exact ⟨⟨h1, h2, h3⟩, h4, h5, h6⟩

/-! ## What changes of the record table do to the layout -/

section
variable {cfg cfg' : AcqTable} {writer writer' : Nat} {recs recs' : Fin 8 → Descriptor} {order : List (Fin 8)}
variable {o : Option (Fin 8)} {n : Fin 8} {d : Descriptor} {st : AcqState}

/-- The fields of a descriptor that the layout speaks of. -/
def sameShape (d e : Descriptor) : Prop :=
  d.state = e.state ∧ d.start = e.start ∧ d.length = e.length ∧ d.pre = e.pre ∧ d.post = e.post ∧
    d.columns = e.columns ∧ d.causes = e.causes

theorem holds_congr (r : Nat) {e : Descriptor} (hl : cfg'.ringLength = cfg.ringLength) (h1 : d.start = e.start)
    (h2 : d.length = e.length) : d.holds cfg' r = e.holds cfg r := by
  rw [Descriptor.holds, Descriptor.holds, hl, h1, h2]

/-- The layout rests on the shapes and the ring geometry alone. -/
theorem Laid.congr (h : Laid cfg writer recs o) (hb : cfg'.ringBase = cfg.ringBase)
    (hl : cfg'.ringLength = cfg.ringLength) (hr : ∀ n, sameShape (recs' n) (recs n)) : Laid cfg' writer recs' o := by
  obtain ⟨hheld, hfull, hapart, hopen⟩ := h
  have hholds : ∀ n r, (recs' n).holds cfg' r = (recs n).holds cfg r := fun n r =>
    holds_congr r hl (hr n).2.1 (hr n).2.2.1
  refine ⟨fun n hn => ?_, fun n hn => ?_, fun m n hmn hm hn r h1 h2 => ?_, fun n hn => ?_⟩
  · obtain ⟨e1, e2, e3, e4, e5, e6, e7⟩ := hr n
    rw [HeldShape, hb, hl, e2, e3, e6]
    exact hheld n (e1 ▸ hn)
  · obtain ⟨e1, e2, e3, e4, e5, e6, e7⟩ := hr n
    rw [FullShape, e3, e4, e5, e7]
    exact hfull n (e1 ▸ hn)
  · rw [hholds, hholds]
    exact hapart m n hmn ((hr m).1 ▸ hm) ((hr n).1 ▸ hn) r (hb ▸ h1) (hl ▸ hb ▸ h2)
  · obtain ⟨e1, e2, e3, e4, e5, e6, e7⟩ := hr n
    rw [mapOffset, hb, hl, e2, e3]
    exact hopen n hn

theorem OpenShape.congr (h : OpenShape cfg recs st) (hp : cfg'.preCount = cfg.preCount)
    (hq : cfg'.postCount = cfg.postCount) (hr : ∀ n, st.openRec = some n → sameShape (recs' n) (recs n)) :
    OpenShape cfg' recs' st := by
  cases st with
  | idle | starved => trivial
  | pre n | waittrig n | post n =>
    obtain ⟨e1, e2, e3, e4, e5, e6, e7⟩ := hr n rfl
    simp only [OpenShape, e3, e4, e5, e7, hp, hq]
    exact h

/-- A descriptor is freed, with no record open after it or another one. -/
theorem Laid.free {o' : Option (Fin 8)} (h : Laid cfg writer recs o)
    (hr : ∀ m, recs' m = if m = n then Descriptor.free else recs m) (ho : ∀ k, o' = some k → o = some k ∧ k ≠ n) :
    Laid cfg writer recs' o' := by
  obtain ⟨hheld, hfull, hapart, hopen⟩ := h
  have hne : ∀ {m}, (recs' m).state ≠ .free → m ≠ n := fun {m} hm hmn => hm (by rw [hr, if_pos hmn]; rfl)
  refine ⟨fun m hm => ?_, fun m hm => ?_, fun k m hkm hk hm r h1 h2 => ?_, fun m hm => ?_⟩
  · have hmn := hne hm
    rw [hr, if_neg hmn] at hm ⊢
    exact hheld m hm
  · have hmn : m ≠ n := hne (by rw [hm]; decide)
    rw [hr, if_neg hmn] at hm ⊢
    exact hfull m hm
  · have hkn := hne hk
    have hmn := hne hm
    rw [hr, if_neg hkn] at hk ⊢
    rw [hr, if_neg hmn] at hm ⊢
    exact hapart k m hkm hk hm r h1 h2
  · obtain ⟨hm', hmn⟩ := ho m hm
    rw [hr, if_neg hmn]
    exact hopen m hm'

/-- A record with its last row is sealed where it lies, with none open after it. -/
theorem Laid.seal (h : Laid cfg writer recs o) (hr : ∀ m, recs' m = if m = n then d else recs m)
    (hheldn : HeldShape cfg d) (hfulln : FullShape d) (hn : (recs n).state ≠ .free) (h1 : d.start = (recs n).start)
    (h2 : d.length = (recs n).length) : Laid cfg writer recs' none := by
  obtain ⟨hheld, hfull, hapart, -⟩ := h
  have hstate : ∀ m, (recs' m).state ≠ .free → (recs m).state ≠ .free := fun m hm => by
    by_cases hmn : m = n
    · rw [hmn]; exact hn
    · rwa [hr, if_neg hmn] at hm
  have hholds : ∀ m r, (recs' m).holds cfg r = (recs m).holds cfg r := fun m r => by
    by_cases hmn : m = n
    · rw [hr, if_pos hmn, hmn]; exact holds_congr r rfl h1 h2
    · rw [hr, if_neg hmn]
  refine ⟨fun m hm => ?_, fun m hm => ?_, fun k m hkm hk hm r hr1 hr2 => ?_, fun m hm => by cases hm⟩
  · by_cases hmn : m = n
    · rw [hr, if_pos hmn]; exact hheldn
    · rw [hr, if_neg hmn] at hm ⊢; exact hheld m hm
  · by_cases hmn : m = n
    · rw [hr, if_pos hmn]; exact hfulln
    · rw [hr, if_neg hmn] at hm ⊢; exact hfull m hm
  · rw [hholds, hholds]
    exact hapart k m hkm (hstate k hk) (hstate m hm) r hr1 hr2

/-- The open record changes to `d`, whose arc lies in the old one and the row just written (R56 to R59). -/
theorem Laid.grow (h : Laid cfg writer recs (some n)) (hr : ∀ m, recs' m = if m = n then d else recs m)
    (hn : (recs n).state ≠ .free) (hns : d.state ≠ .sealed) (hd : HeldShape cfg d)
    (harc : ∀ r, RingRow cfg r → d.holds cfg r = true → r = writer ∨ (recs n).holds cfg r = true)
    (hclear : ∀ m, m ≠ n → (recs m).state ≠ .free → ¬(recs m).holds cfg writer = true)
    (hnext : writer' = mapOffset cfg d d.length) : Laid cfg writer' recs' (some n) := by
  obtain ⟨hheld, hfull, hapart, -⟩ := h
  have hone : ∀ m, m ≠ n → (recs m).state ≠ .free → ∀ r, RingRow cfg r →
      ¬(d.holds cfg r = true ∧ (recs m).holds cfg r = true) := by
    rintro m hmn hm r hrow ⟨hdr, hmr⟩
    rcases harc r hrow hdr with rfl | hold
    · exact hclear m hmn hm hmr
    · exact hapart n m (Ne.symm hmn) hn hm r hrow.1 hrow.2 ⟨hold, hmr⟩
  refine ⟨fun m hm => ?_, fun m hm => ?_, fun k m hkm hk hm r hr1 hr2 => ?_, fun m hm => ?_⟩
  · by_cases hmn : m = n
    · rw [hr, if_pos hmn]; exact hd
    · rw [hr, if_neg hmn] at hm ⊢; exact hheld m hm
  · by_cases hmn : m = n
    · rw [hr, if_pos hmn] at hm; exact absurd hm hns
    · rw [hr, if_neg hmn] at hm ⊢; exact hfull m hm
  · by_cases hkn : k = n
    · have hmn : m ≠ n := fun h => hkm (hkn.trans h.symm)
      rw [hr, if_neg hmn] at hm
      rw [hr, if_pos hkn, hr, if_neg hmn]
      exact hone m hmn hm r ⟨hr1, hr2⟩
    · rw [hr, if_neg hkn] at hk
      by_cases hmn : m = n
      · rw [hr, if_neg hkn, hr, if_pos hmn]
        exact fun hc => hone k hkn hk r ⟨hr1, hr2⟩ hc.symm
      · rw [hr, if_neg hmn] at hm
        rw [hr, if_neg hkn, hr, if_neg hmn]
        exact hapart k m hkm hk hm r hr1 hr2
  · obtain rfl := Option.some.inj hm
    rw [hr, if_pos rfl]
    exact hnext

/-- An empty record is laid at the writer row (R52). -/
theorem Laid.allocate {columns : Nat} (h : Laid cfg writer recs o) (hw : RingRow cfg writer)
    (hr : ∀ m, recs' m = if m = n then Descriptor.fresh writer columns else recs m) (hc : 1 ≤ columns ∧ columns ≤ 16) :
    Laid cfg writer recs' (some n) := by
  obtain ⟨hheld, hfull, hapart, -⟩ := h
  have hempty : ∀ r, ¬(Descriptor.fresh writer columns).holds cfg r = true := fun r => by
    rw [Descriptor.holds, decide_eq_true_eq]
    exact Nat.not_lt_zero _
  refine ⟨fun m hm => ?_, fun m hm => ?_, fun k m hkm hk hm r hr1 hr2 => ?_, fun m hm => ?_⟩
  · by_cases hmn : m = n
    · rw [hr, if_pos hmn]
      exact ⟨hw.1, hw.2, Nat.zero_le _, hc.1, hc.2⟩
    · rw [hr, if_neg hmn] at hm ⊢; exact hheld m hm
  · by_cases hmn : m = n
    · rw [hr, if_pos hmn] at hm; cases hm
    · rw [hr, if_neg hmn] at hm ⊢; exact hfull m hm
  · rintro ⟨hkr, hmr⟩
    by_cases hkn : k = n
    · rw [hr, if_pos hkn] at hkr; exact hempty r hkr
    · by_cases hmn : m = n
      · rw [hr, if_pos hmn] at hmr; exact hempty r hmr
      · rw [hr, if_neg hkn] at hk hkr
        rw [hr, if_neg hmn] at hm hmr
        exact hapart k m hkm hk hm r hr1 hr2 ⟨hkr, hmr⟩
  · obtain rfl := Option.some.inj hm
    rw [hr, if_pos rfl]
    show writer = mapOffset cfg (Descriptor.fresh writer columns) 0
    rw [mapOffset_eq hw (Nat.zero_le _)]
    have := hw.2
    show writer = if writer + 0 < _ then writer + 0 else _
    rw [if_pos (by omega)]
    rfl

/-- The ACQ state entered with an empty record (R52). -/
theorem openShape_entry {columns : Nat} (hr : recs n = Descriptor.fresh writer columns) :
    OpenShape cfg recs (cfg.entry n) := by
  unfold AcqTable.entry
  split
  · next h => exact ⟨by rw [hr, h]; rfl, by rw [hr]; rfl⟩
  · next h => exact ⟨by rw [hr]; exact Nat.pos_of_ne_zero h, by rw [hr]; rfl⟩

theorem openShape_stopped (h : st.openRec = none) : OpenShape cfg recs st := by
  cases st with
  | idle | starved => trivial
  | pre | waittrig | post => cases h

end

end Sys2Proof.Machine.Steps
end

section
/-! SUPPORT. The layout of the held records through a row commit and through every other move. -/

namespace Sys2Proof.Machine.Steps

variable {s t u : State}

/-! ## The open record at a commit -/

/-- `d` is the open record after a row written at the writer row: it fits the ring, its arc lies in the old one and that
row, and it ends before the next writer row. -/
def Extends (cfg : AcqTable) (writer : Nat) (old d : Descriptor) : Prop :=
  HeldShape cfg d ∧ (∀ r, RingRow cfg r → d.holds cfg r = true → r = writer ∨ old.holds cfg r = true) ∧
    cfg.succ writer = mapOffset cfg d d.length

/-- The record grows by the row. -/
theorem extends_grown {cfg : AcqTable} {writer : Nat} {old d : Descriptor} (hold : HeldShape cfg old)
    (hw : writer = mapOffset cfg old old.length) (h1 : d.start = old.start) (h2 : d.length = old.length + 1)
    (h3 : d.columns = old.columns) (hfit : old.length + 1 ≤ cfg.ringLength) : Extends cfg writer old d := by
  obtain ⟨k1, k2, k3, k4, k5⟩ := hold
  have hrow : RingRow cfg old.start := ⟨k1, k2⟩
  have hrowd : RingRow cfg d.start := by rw [h1]; exact hrow
  rw [mapOffset_eq hrow k3] at hw
  refine ⟨⟨by omega, by omega, by omega, by omega, by omega⟩, fun r hr hd => ?_, ?_⟩
  · rw [holds_iff hrowd hr, h1, h2] at hd
    rw [holds_iff hrow hr]
    obtain ⟨r1, r2⟩ := hr
    split at hd <;> split at hw <;> split <;> omega
  · rw [mapOffset_eq hrowd (by omega), h1, h2, AcqTable.succ]
    split at hw <;> split <;> split <;> omega

/-- The record slides by the row (R57). -/
theorem extends_slid {cfg : AcqTable} {writer : Nat} {old d : Descriptor} (hold : HeldShape cfg old)
    (hw : writer = mapOffset cfg old old.length) (h1 : d.start = cfg.succ old.start) (h2 : d.length = old.length)
    (h3 : d.columns = old.columns) : Extends cfg writer old d := by
  obtain ⟨k1, k2, k3, k4, k5⟩ := hold
  have hrow : RingRow cfg old.start := ⟨k1, k2⟩
  have hstart : cfg.ringBase ≤ d.start ∧ d.start < cfg.ringBase + cfg.ringLength := by
    rw [h1]
    exact AcqTable.succ_mem (by omega) k1 k2
  have hrowd : RingRow cfg d.start := hstart
  rw [mapOffset_eq hrow k3] at hw
  refine ⟨⟨hstart.1, hstart.2, by omega, by omega, by omega⟩, fun r hr hd => ?_, ?_⟩
  · rw [holds_iff hrowd hr, h2] at hd
    rw [holds_iff hrow hr]
    obtain ⟨r1, r2⟩ := hr
    rw [AcqTable.succ] at h1
    split at hd <;> split at h1 <;> split at hw <;> split <;> omega
  · rw [mapOffset_eq hrowd (by omega), h1, h2, AcqTable.succ, AcqTable.succ]
    split at hw <;> split <;> split <;> split <;> omega

theorem firing_any {row : List Word} (h : triggerTaken s row = true) : (firing s row).any = true := by
  unfold triggerTaken at h
  split at h
  · exact h
  · exact (Bool.and_eq_true_iff.mp h).2
  · cases h

/-- What a commit finds of the open record. -/
theorem capture_open {n : Fin 8} (hs : CaptureSound s) (ho : s.acq.state.openRec = some n) :
    HeldShape s.acq.cfg s.rtb.recs[n] ∧ s.acq.writer = mapOffset s.acq.cfg s.rtb.recs[n] s.rtb.recs[n].length ∧
      s.rtb.recs[n].state = .opened ∧ s.acq.cfg.preCount + 1 + s.acq.cfg.postCount ≤ s.acq.cfg.ringLength := by
  obtain ⟨-, hrecs, hscan, ⟨hheld, -, -, hopen⟩, -⟩ := hs
  have hopened := (hrecs.1 n).mpr ho
  refine ⟨hheld n (by rw [recsOf, hopened]; decide), hopen n ho, hopened, ?_⟩
  exact (hscan.1 (not_idle_of_running (by rw [State.timerRunning, ho]; rfl))).2.2

theorem Grown.extends {row : List Word} {n : Fin 8} {d : Descriptor} {st : AcqState} (h : Grown s row n d st)
    (hs : CaptureSound s) (ho : s.acq.state.openRec = some n) :
    Extends s.acq.cfg s.acq.writer s.rtb.recs[n] d ∧
      ∀ recs : Fin 8 → Descriptor, recs n = d → OpenShape s.acq.cfg recs st := by
  obtain ⟨hheld, hw, -, hfit⟩ := capture_open hs ho
  obtain ⟨-, -, -, -, hshape, -⟩ := hs
  cases h with
  | pre hst ht =>
    rw [hst] at hshape
    obtain ⟨hlen, hcauses⟩ := hshape
    rw [recsOf] at hlen hcauses
    refine ⟨extends_grown hheld hw rfl rfl rfl (by omega), fun recs hrecs => ?_⟩
    split
    · next he => exact ⟨by rw [hrecs]; exact he, by rw [hrecs]; exact hcauses⟩
    · next hne =>
      refine ⟨?_, by rw [hrecs]; exact hcauses⟩
      rw [hrecs]
      show s.rtb.recs[n].length + 1 < s.acq.cfg.preCount
      omega
  | wait hst ht =>
    rw [hst] at hshape
    obtain ⟨hlen, hcauses⟩ := hshape
    rw [recsOf] at hlen hcauses
    refine ⟨extends_slid hheld hw ?_ rfl rfl, fun recs hrecs => ⟨?_, ?_⟩⟩
    · show (if s.acq.cfg.preCount = 0 then _ else _) = s.acq.cfg.succ s.rtb.recs[n].start
      split
      · next h0 =>
        have hstart : s.acq.writer = s.rtb.recs[n].start := by
          have hrow := hheld.2.1
          rw [mapOffset_eq ⟨hheld.1, hheld.2.1⟩ hheld.2.2.1, hlen, h0, if_pos (by omega)] at hw
          exact hw
        rw [hstart]
      · rfl
    · rw [hrecs]; exact hlen
    · rw [hrecs]; exact hcauses
  | post hst hp =>
    rw [hst] at hshape
    obtain ⟨hlen, hpre, hpost, hcauses⟩ := hshape
    rw [recsOf] at hlen hpre hpost hcauses
    refine ⟨extends_grown hheld hw rfl rfl rfl (by omega), fun recs hrecs => ?_⟩
    simp only [OpenShape, hrecs]
    exact ⟨by omega, hpre, by omega, hcauses⟩
  | trigger early hst ht hp =>
    have hlen : s.rtb.recs[n].length ≤ s.acq.cfg.preCount := by
      rcases hst with hst | hst <;> rw [hst] at hshape
      · exact hshape.1.le
      · exact hshape.1.le
    refine ⟨extends_grown hheld hw rfl rfl rfl (by omega), fun recs hrecs => ?_⟩
    simp only [OpenShape, hrecs]
    exact ⟨rfl, hlen, Nat.pos_of_ne_zero hp, firing_any ht⟩

theorem Full.extends {row : List Word} {n : Fin 8} {d : Descriptor} (h : Full s row n d)
    (hs : CaptureSound s) (ho : s.acq.state.openRec = some n) :
    Extends s.acq.cfg s.acq.writer s.rtb.recs[n] d ∧ FullShape d ∧ d.state = .opened := by
  obtain ⟨hheld, hw, hopened, hfit⟩ := capture_open hs ho
  obtain ⟨-, -, -, -, hshape, -⟩ := hs
  cases h with
  | post hst hp =>
    rw [hst] at hshape
    obtain ⟨hlen, hpre, hpost, hcauses⟩ := hshape
    rw [recsOf] at hlen hpre hpost hcauses
    refine ⟨extends_grown hheld hw rfl rfl rfl (by omega), ⟨?_, hcauses⟩, hopened⟩
    show s.rtb.recs[n].length + 1 = s.rtb.recs[n].pre + 1 + (s.rtb.recs[n].post + 1)
    omega
  | trigger early hst ht hp =>
    have hlen : s.rtb.recs[n].length ≤ s.acq.cfg.preCount := by
      rcases hst with hst | hst <;> rw [hst] at hshape
      · exact hshape.1.le
      · exact hshape.1.le
    exact ⟨extends_grown hheld hw rfl rfl rfl (by omega), ⟨rfl, firing_any ht⟩, hopened⟩

/-- With a commit waiting no arc but the open one can hold the writer row. -/
theorem waiting_clear {row : List Word} {n : Fin 8} (hs : CaptureSound s) (hp : s.cnv.scan = .presented row)
    (ho : s.acq.state.openRec = some n) {m : Fin 8} (hm : m ≠ n) (hstate : (recsOf s m).state ≠ .free) :
    ¬(recsOf s m).holds s.acq.cfg s.acq.writer = true := by
  obtain ⟨-, hrecs, -, -, -, hclear⟩ := hs
  refine hclear row hp m ?_
  cases h : s.rtb.recs[m].state with
  | free => exact absurd h hstate
  | sealed => rfl
  | opened =>
    have := ((hrecs.1 m).mp h).symm.trans ho
    exact absurd (Option.some.inj this) hm

theorem Continued.laid (h : Continued s t) (hr : RingRow s.acq.cfg s.acq.writer)
    (hlist : 1 ≤ s.acq.cfg.listLength ∧ s.acq.cfg.listLength ≤ 16)
    (hs : Laid s.acq.cfg s.acq.writer (recsOf s) none) :
    Laid t.acq.cfg t.acq.writer (recsOf t) t.acq.state.openRec ∧ OpenShape t.acq.cfg (recsOf t) t.acq.state := by
  cases h with
  | idle => exact ⟨hs, trivial⟩
  | starved => exact ⟨hs, trivial⟩
  | again k hk =>
    have hget : ∀ m : Fin 8, recsOf (s.allocate k) m =
        if m = k then Descriptor.fresh s.acq.writer s.acq.cfg.listLength else recsOf s m := fun m => State.allocate_get ..
    refine ⟨?_, openShape_entry (writer := s.acq.writer) (columns := s.acq.cfg.listLength) ?_⟩
    · show Laid s.acq.cfg s.acq.writer _ (s.acq.cfg.entry k).openRec
      rw [entry_running]
      exact hs.allocate hr hget hlist
    · rw [hget, if_pos rfl]

theorem Committed.laid {row : List Word} {n : Fin 8} (h : Committed s row n t) (hs : CaptureSound s)
    (hp : s.cnv.scan = .presented row) (ho : s.acq.state.openRec = some n) :
    Laid t.acq.cfg t.acq.writer (recsOf t) t.acq.state.openRec ∧ OpenShape t.acq.cfg (recsOf t) t.acq.state := by
  obtain ⟨-, -, hopened, -⟩ := capture_open hs ho
  have hfree : (recsOf s n).state ≠ .free := by rw [recsOf, hopened]; decide
  have hset : ∀ d : Descriptor, d.state = .opened → Extends s.acq.cfg s.acq.writer s.rtb.recs[n] d →
      Laid s.acq.cfg (s.acq.cfg.succ s.acq.writer) (recsOf ((commitRow s row).setRec n d)) (some n) := by
    intro d hd hext
    obtain ⟨h1, h2, h3⟩ := hext
    obtain ⟨-, -, -, hlaid, -⟩ := id hs
    rw [ho] at hlaid
    exact hlaid.grow (d := d) (fun m => State.setRec_get (commitRow s row) n m d) hfree (by rw [hd]; decide) h1 h2
      (fun m hm => waiting_clear hs hp ho hm) h3
  cases h with
  | grown d st e hd =>
    obtain ⟨hext, hshape⟩ := hd.extends hs ho
    have hlaid := hset d (hd.opened.1.trans hopened) hext
    refine ⟨?_, hshape _ ?_⟩
    · show Laid s.acq.cfg (s.acq.cfg.succ s.acq.writer) _ st.openRec
      rw [hd.running]
      exact hlaid
    · show ((commitRow s row).setRec n d).rtb.recs[n] = d
      rw [State.setRec_get, if_pos rfl]
  | sealed d f hd hf hv =>
    obtain ⟨hext, hfull, hstate⟩ := hd.extends hs ho
    have hlaid := hset d hstate hext
    have hn : recsOf ((commitRow s row).setRec n d) n = d := by
      rw [recsOf, State.setRec_get, if_pos rfl]
    have hget : ∀ m : Fin 8, recsOf ((((commitRow s row).setRec n d).setSticky f).sealRec n false) m =
        if m = n then { d with state := .sealed, truncated := false, pins := 0 }
        else recsOf ((commitRow s row).setRec n d) m := fun m => by
      refine (State.sealRec_get (((commitRow s row).setRec n d).setSticky f) n m false).trans ?_
      show (if m = n then
          ({ recsOf ((commitRow s row).setRec n d) n with state := .sealed, truncated := false, pins := 0 } : Descriptor)
        else recsOf ((commitRow s row).setRec n d) m) = _
      rw [hn]
    have hsealed := hlaid.seal hget hext.1 hfull (by rw [hn, hstate]; decide) (by rw [hn]) (by rw [hn])
    obtain ⟨hring, -, hscan, -⟩ := hs
    obtain ⟨h16, -, -, hlow, hhigh⟩ := hring
    have hlist := hscan.1 (not_idle_of_running (by rw [State.timerRunning, ho]; rfl))
    have h1 : 1 ≤ s.acq.cfg.ringLength := by omega
    exact hv.laid (AcqTable.succ_mem h1 hlow hhigh) ⟨hlist.1, hlist.2.1⟩ hsealed

/-! ## Every move -/

theorem sameShape_refl (d : Descriptor) : sameShape d d := ⟨rfl, rfl, rfl, rfl, rfl, rfl, rfl⟩

/-- A waiting commit stays outside every SEALED arc while they and the writer row stay. -/
theorem WaitClear.congr (h : WaitClear s) (hscan : t.cnv.scan = s.cnv.scan) (hl : t.acq.cfg.ringLength = s.acq.cfg.ringLength)
    (hw : t.acq.writer = s.acq.writer) (hr : ∀ n, sameShape (recsOf t n) (recsOf s n)) : WaitClear t := by
  intro row hp n hn
  obtain ⟨e1, e2, e3, -⟩ := hr n
  have hstate : s.rtb.recs[n].state = .sealed := e1.symm.trans hn
  have hholds : t.rtb.recs[n].holds t.acq.cfg t.acq.writer = s.rtb.recs[n].holds s.acq.cfg t.acq.writer :=
    holds_congr t.acq.writer hl e2 e3
  rw [hholds, hw]
  exact h row (hscan ▸ hp) n hstate

theorem waitClear_of_scan (h : ∀ row, t.cnv.scan ≠ .presented row) : WaitClear t := fun row hp => absurd hp (h row)

/-- The part of CaptureSound that a move has to show. -/
def Captured (s : State) : Prop :=
  Laid s.acq.cfg s.acq.writer (recsOf s) s.acq.state.openRec ∧ OpenShape s.acq.cfg (recsOf s) s.acq.state ∧ WaitClear s

/-- Records change in PINS or GAP alone. -/
theorem captured_of_shapes (hs : CaptureSound s) (hacq : t.acq = s.acq) (hscan : t.cnv.scan = s.cnv.scan)
    (hr : ∀ n, sameShape (recsOf t n) (recsOf s n)) : Captured t := by
  obtain ⟨-, -, -, hlaid, hshape, hclear⟩ := hs
  refine ⟨?_, ?_, hclear.congr hscan (by rw [hacq]) (by rw [hacq]) hr⟩
  · rw [hacq]; exact hlaid.congr rfl rfl hr
  · rw [hacq]; exact hshape.congr rfl rfl fun n _ => hr n

/-- Neither the records nor ACQ change, and the scan presents no new row. -/
theorem captured_of_scan (hs : CaptureSound s) (hcfg : t.acq.cfg = s.acq.cfg) (hw : t.acq.writer = s.acq.writer)
    (hst : t.acq.state = s.acq.state) (hr : t.rtb = s.rtb)
    (hscan : ∀ row, t.cnv.scan = .presented row → s.cnv.scan = .presented row ∨ s.blocked = false) : Captured t := by
  obtain ⟨-, -, -, hlaid, hshape, hclear⟩ := hs
  have hrecs : recsOf t = recsOf s := by unfold recsOf; rw [hr]
  refine ⟨by rwa [hcfg, hw, hst, hrecs], by rwa [hcfg, hst, hrecs], fun row hp n hn => ?_⟩
  rw [hr] at hn ⊢
  rw [hcfg, hw]
  rcases hscan row hp with h | h
  · exact hclear row h n hn
  · exact fun hholds => absurd (State.blocked_iff.mpr ⟨n, hn, hholds⟩) (by simp [h])

theorem captured_unpin {refs : List (Fin 8)} (hs : CaptureSound s) (hacq : t.acq = s.acq) (hscan : t.cnv.scan = s.cnv.scan)
    (hr : t.rtb = s.rtb.unpin refs) : Captured t :=
  captured_of_shapes hs hacq hscan fun n => by
    rw [recsOf, hr, RecordTable.unpin_get]
    exact sameShape_refl _

/-- What ends an acquisition keeps the layout (R66, R98). -/
theorem endRecord_laid (hs : CaptureSound s) : Laid s.acq.cfg s.acq.writer (recsOf s.endRecord) none := by
  obtain ⟨-, hrecs, -, hlaid, hshape, -⟩ := id hs
  unfold State.endRecord
  cases hst : s.acq.state with
  | idle | starved => rw [hst] at hlaid; exact hlaid
  | pre n | waittrig n => exact hlaid.free (n := n) (fun m => State.freeRec_get ..) fun k hk => by cases hk
  | post n =>
    rw [hst] at hshape
    obtain ⟨hlen, -, -, hcauses⟩ := hshape
    obtain ⟨hheld, -, hopened, -⟩ := capture_open (n := n) hs (by rw [hst]; rfl)
    exact hlaid.seal (n := n) (fun m => State.sealRec_get ..) hheld ⟨hlen, hcauses⟩ (by rw [recsOf, hopened]; decide)
      rfl rfl

theorem powerOn_captured {held gate scan trig : Bool} {n : Nat} {p : List Instr} :
    Captured { State.powerOn gate scan trig with held := held, conversions := n, pending := p } := by
  have hfree : ∀ n : Fin 8, recsOf { State.powerOn gate scan trig with held := held, conversions := n, pending := p } n =
      Descriptor.free := fun n => by simp [recsOf, State.powerOn]
  refine ⟨⟨fun n hn => absurd (by rw [recsOf]; simp [State.powerOn, Descriptor.free]) hn, fun n hn => ?_,
    fun m k _ hm => absurd (by rw [recsOf]; simp [State.powerOn, Descriptor.free]) hm, fun n hn => by cases hn⟩, trivial,
    waitClear_of_scan fun row hp => by cases hp⟩
  rw [recsOf] at hn
  simp [State.powerOn, Descriptor.free] at hn

/-- An open record at the writer row, in a state that was not running. -/
theorem captured_allocate {n : Fin 8} (hr : RingSound s)
    (hlist : 1 ≤ s.acq.cfg.listLength ∧ s.acq.cfg.listLength ≤ 16) (hscan : s.cnv.scan = .free)
    (hlaid : Laid s.acq.cfg s.acq.writer (recsOf s) none) : Captured (s.allocate n) := by
  have hget : ∀ m : Fin 8, recsOf (s.allocate n) m =
      if m = n then Descriptor.fresh s.acq.writer s.acq.cfg.listLength else recsOf s m := fun m => State.allocate_get ..
  obtain ⟨-, -, -, hlow, hhigh⟩ := hr
  refine ⟨?_, openShape_entry (writer := s.acq.writer) (columns := s.acq.cfg.listLength) ?_,
    waitClear_of_scan fun row hp => ?_⟩
  · show Laid s.acq.cfg s.acq.writer _ (s.acq.cfg.entry n).openRec
    rw [entry_running]
    exact hlaid.allocate ⟨hlow, hhigh⟩ hget hlist
  · rw [hget, if_pos rfl]
  · exact absurd (hscan.symm.trans hp) (by simp)

theorem table_captured {i : Nat} {v : Word} {c : AcqTable} (hs : CaptureSound s) (hu : acqUnlocked s i = true)
    (hc : s.acq.cfg.withWord i v = some c) : Captured (acqWritten s i c) := by
  have hm : Move s _ _ := .table i v c hu hc
  have e1 : (acqWritten s i c).cnv.scan = s.cnv.scan := hm.kept (p := .scan) (by simp)
  have e2 : (acqWritten s i c).rtb = s.rtb := hm.kept (p := .rtb) (by simp)
  have e3 : (acqWritten s i c).acq.cfg = c := by rw [TableWords.acqWritten_acq]
  have e4 : (acqWritten s i c).acq.state = s.acq.state := by rw [TableWords.acqWritten_acq]
  have e5 : recsOf (acqWritten s i c) = recsOf s := by unfold recsOf; rw [e2]
  obtain ⟨-, hrecs, hscan, hlaid, hshape, hclear⟩ := hs
  obtain ⟨hgeometry, -⟩ := AcqTable.withWord_spec hc
  have hidleOpen : s.acqIdle = true → s.acq.state.openRec = none := fun h => by
    rw [TableWords.acqIdle_iff] at h
    rw [h]; rfl
  have hwait : s.acqIdle = true → WaitClear (acqWritten s i c) := fun h => waitClear_of_scan fun row hp => by
    rw [e1, scan_free hscan (stopped_of_idle h)] at hp
    cases hp
  by_cases hi : i ≤ 1
  · obtain ⟨hidle, hallfree⟩ : s.acqIdle = true ∧ s.allFree = true := by
      have : i = 0 ∨ i = 1 := by omega
      rcases this with rfl | rfl <;> exact Bool.and_eq_true_iff.mp hu
    have hall : ∀ n, (recsOf s n).state = .free := State.allFree_iff.mp hallfree
    have hopen := hidleOpen hidle
    unfold Captured
    rw [e4, e5, hopen]
    refine ⟨⟨fun n hn => absurd (hall n) hn, fun n hn => ?_, fun m n _ hm => absurd (hall m) hm, fun n hn => by cases hn⟩,
      openShape_stopped hopen, hwait hidle⟩
    rw [hall n] at hn
    cases hn
  · obtain ⟨hb, hl⟩ := hgeometry (by omega)
    have e6 : (acqWritten s i c).acq.writer = s.acq.writer := by rw [TableWords.acqWritten_acq]; exact if_neg hi
    unfold Captured
    rw [e3, e4, e5, e6]
    refine ⟨hlaid.congr hb hl fun n => sameShape_refl _, ?_, ?_⟩
    · rcases acqUnlocked_cases hu hc with hidle | ⟨-, -, hsame⟩
      · exact openShape_stopped (hidleOpen hidle)
      · exact hshape.congr (congrArg AcqTable.preCount hsame :) (congrArg AcqTable.postCount hsame :) fun n _ =>
          sameShape_refl _
    · exact hclear.congr e1 (by rw [e3, hl]) e6 fun n => by rw [e5]; exact sameShape_refl _

theorem Move.captured {cs : List Part} (h : Move s cs t) (hs : CaptureSound s) : Captured t := by
  have hframe : Part.cfg ∉ cs → Part.writer ∉ cs → Part.mode ∉ cs → Part.rtb ∉ cs →
      (∀ row, t.cnv.scan = .presented row → s.cnv.scan = .presented row ∨ s.blocked = false) → Captured t :=
    fun h1 h2 h3 h4 h5 => captured_of_scan hs (h.kept h1) (h.kept h2) (h.kept h3) (h.kept h4) h5
  have hkept : Part.cfg ∉ cs → Part.writer ∉ cs → Part.mode ∉ cs → Part.rtb ∉ cs → Part.scan ∉ cs → Captured t :=
    fun h1 h2 h3 h4 h5 => by
      have e : t.cnv.scan = s.cnv.scan := h.kept h5
      exact hframe h1 h2 h3 h4 fun row hp => .inl (e ▸ hp)
  obtain ⟨hring, hrecs, hscan, hlaid, hshape, hclear⟩ := id hs
  cases h with
  | powerOn => exact powerOn_captured
  | softReset =>
    refine ⟨?_, by simp [OpenShape], waitClear_of_scan fun row hp => by simp at hp⟩
    have hend := (endRecord_laid hs).congr (cfg' := s.acq.cfg) (recs' := recsOf (Machine.softReset s.stopOutcome)) rfl rfl
      fun n => by
        rw [recsOf, softReset_rtb, RecordTable.unpinAll_get]
        exact sameShape_refl _
    simpa [AcqState.openRec] using hend
  | stop =>
    refine ⟨?_, by simp [OpenShape], waitClear_of_scan fun row hp => by simp at hp⟩
    have hend : Laid s.acq.cfg s.acq.writer (recsOf s.stopOutcome) none := endRecord_laid hs
    simpa [AcqState.openRec] using hend
  | arm n _ hc =>
    obtain ⟨hidle, hlist, -⟩ := armRefusal_none.mp hc
    have hopen : s.acq.state.openRec = none := by
      rw [TableWords.acqIdle_iff] at hidle
      rw [hidle]; rfl
    rw [hopen] at hlaid
    exact captured_allocate (n := n) hring hlist (scan_free hscan (stopped_of_idle hidle)) hlaid
  | submit =>
    refine captured_of_shapes hs rfl rfl fun n => ?_
    have : recsOf (submitEffect s) n = _ := RecordTable.pin_get s.rtb s.cq.staging.refs n
    rw [this]
    exact sameShape_refl _
  | flushOne => exact captured_unpin hs rfl rfl rfl
  | release m _ hm =>
    refine ⟨hlaid.free (n := m) (fun k => State.freeRec_get ..) fun k hk => ⟨hk, ?_⟩, ?_, fun row hp n hn => ?_⟩
    · rintro rfl
      have := (hrecs.1 k).mpr hk
      rw [hm] at this
      cases this
    · refine hshape.congr rfl rfl fun k hk => ?_
      rw [recsOf, State.freeRec_get, if_neg]
      · exact sameShape_refl _
      · rintro rfl
        have := (hrecs.1 k).mpr hk
        rw [hm] at this
        cases this
    · rw [State.freeRec_get] at hn ⊢
      split at hn
      · cases hn
      · next hne =>
        rw [if_neg hne]
        exact hclear row hp n hn
  | resume m _ hm _ ha =>
    have hidle : s.acqIdle = false := by rw [State.acqIdle, ha]; rfl
    obtain ⟨hl1, hl2, -⟩ := hscan.1 hidle
    rw [ha] at hlaid
    have hfree : s.cnv.scan = .free := scan_free hscan (by rw [State.timerRunning, ha]; rfl)
    exact captured_allocate (s := s.freeRec m) (n := m) hring ⟨hl1, hl2⟩ hfree
      (hlaid.free (n := m) (fun k => State.freeRec_get ..) fun k hk => by cases hk)
  | scanStart => exact hframe (by simp) (by simp) (by simp) (by simp) fun row hp => by cases hp
  | convert => exact hframe (by simp) (by simp) (by simp) (by simp) fun row hp => by cases hp
  | nextSlot => exact hframe (by simp) (by simp) (by simp) (by simp) fun row hp => by cases hp
  | present c w _ _ hb => exact hframe (by simp) (by simp) (by simp) (by simp) fun row hp => .inr hb
  | scanEnd => exact hframe (by simp) (by simp) (by simp) (by simp) fun row hp => by cases hp
  | gap n ho =>
    refine captured_of_shapes hs rfl rfl fun m => ?_
    rw [recsOf, State.setRec_get]
    split
    · next he => rw [he]; exact sameShape_refl _
    · exact sameShape_refl _
  | commit row hp hrun hsw hw =>
    obtain ⟨n, ho⟩ := openRec_of_running hrun
    obtain ⟨h1, h2⟩ := (commitRecord_committed row ho).laid hs hp ho
    obtain ⟨-, -, -, -, -, hcnv, -⟩ := commitRecord_part row ho
    refine ⟨h1, h2, waitClear_of_scan fun row' hp' => ?_⟩
    rw [hcnv, commitRow_cnv] at hp'
    cases hp'
  | ringBusy => exact captured_unpin hs rfl rfl rfl
  | engine h =>
    obtain ⟨r, r', -, -, hgo⟩ := h.goes
    cases hgo with
    | on => exact captured_of_shapes hs rfl rfl fun n => sameShape_refl _
    | answered => exact captured_unpin hs rfl rfl rfl
  | table i v c hu hc => exact table_captured hs hu hc
  | _ => exact hkept (by simp) (by simp) (by simp) (by simp) (by simp)

theorem Move.capture {cs : List Part} (h : Move s cs t) (hs : CaptureSound s) : CaptureSound t :=
  ⟨h.ring hs.1, h.records hs.2.1, h.scan hs.2.2.1, h.captured hs⟩

/-- Settles O11, move by move. -/
theorem captureKept : Obligations.CaptureKept := by
  intro s t hring hrecs hscan hshapes harcs h
  have hs : CaptureSound s := ⟨hring, hrecs, hscan, shapes_arcs_iff.mp ⟨hshapes, harcs⟩⟩
  obtain ⟨-, -, -, ht⟩ := step_keeps Move.capture h hs
  exact shapes_arcs_iff.mpr ht

end Sys2Proof.Machine.Steps
end

section
/-! SUPPORT. The step, the configuration, and the requests that this family settles: each check list beside the model's
refusal, and the effect of an accepted request. -/

namespace Sys2Proof.Machine.Steps

variable {s t u : State}

/-- Settles O1: it is the definition of a step. -/
theorem stepTakesFrontCommand : Obligations.StepTakesFrontCommand := fun _ _ => rfl

/-! ## What moves the configuration (R30, R47, R49, R53, R65) -/

/-- The SCAN table, and the ACQ table but for period and timeout. -/
def SameConfig (s t : State) : Prop :=
  t.cnv.slots = s.cnv.slots ∧ { t.acq.cfg with period := s.acq.cfg.period, timeout := s.acq.cfg.timeout } = s.acq.cfg

theorem SameConfig.of_kept (h1 : t.cnv.slots = s.cnv.slots) (h2 : t.acq.cfg = s.acq.cfg) : SameConfig s t :=
  ⟨h1, by rw [h2]⟩

theorem SameConfig.trans (h : SameConfig s t) (k : SameConfig t u) : SameConfig s u := by
  refine ⟨k.1.trans h.1, ?_⟩
  have e := congrArg
    (fun c : AcqTable => { c with period := s.acq.cfg.period, timeout := s.acq.cfg.timeout }) k.2
  exact Eq.trans e h.2

/-- The moves of a write of TDATA outside IDLE. -/
theorem Move.sameConfig {cs : List Part} {w : Word} (h : Move s cs t) (hcs : cs ⊆ touched (.tdataWrite w))
    (hi : s.acqIdle = false) : SameConfig s t := by
  have hkept : Part.slots ∉ cs → Part.cfg ∉ cs → SameConfig s t := fun h1 h2 => .of_kept (h.kept h1) (h.kept h2)
  cases h with
  | powerOn => simp [touched] at hcs
  | slots _ hidle => exact absurd (hi.symm.trans hidle) (by decide)
  | table i v c hu hc =>
    rcases acqUnlocked_cases hu hc with hidle | ⟨-, -, hsame⟩
    · exact absurd (hi.symm.trans hidle) (by decide)
    · refine ⟨(Move.table i v c hu hc).kept (p := .slots) (by simp), ?_⟩
      rw [TableWords.acqWritten_acq]
      exact hsame
  | _ => exact hkept (by simp) (by simp)

theorem tdataWrite_sameConfig {w : Word} (h : exec (.tdataWrite w) s = .next t) (hi : s.acqIdle = false) :
    SameConfig s t := by
  have hall : SameConfig s t ∧ t.acqIdle = false := by
    have hmoves := exec_moves (c := .tdataWrite w) rfl t h
    clear h
    induction hmoves with
    | refl => exact ⟨.of_kept rfl rfl, hi⟩
    | tail _ hlast ih =>
      obtain ⟨cs, hsub, hm⟩ := hlast
      refine ⟨ih.1.trans (hm.sameConfig hsub ih.2), ?_⟩
      have hmode := hm.kept (p := .mode) fun hin => by simpa [touched] using hsub hin
      rw [State.acqIdle, hmode]
      exact ih.2
  exact hall.1

/-- IDLE stays IDLE under every command but ARM. -/
theorem idle_stays {c : Instr} (hw : c.wellFormed = true) (hpower : ∀ h g e, c ≠ .powerOnReset h g e) (harm : c ≠ .arm)
    (h : exec c s = .next t) (hi : s.acq.state = .idle) : t.acq.state = .idle := by
  have hkept : Part.mode ∉ touched c → t.acq.state = .idle := fun hp =>
    (exec_kept (p := .mode) hw h (by decide) hp).trans hi
  have hheld : ∀ {out : Out}, s.unlessHeld out = .next t → out = .next t ∨ t = s := fun {out} ho => by
    unfold State.unlessHeld at ho
    split at ho
    · cases ho; exact .inr rfl
    · exact .inl ho
  cases c with
  | powerOnReset held gate edges => exact absurd rfl (hpower held gate edges)
  | arm => exact absurd rfl harm
  | srst =>
    rcases hheld h with h | rfl
    · cases h
      simp [srstEffect]
    · exact hi
  | stop =>
    rcases hheld h with h | rfl
    · cases h
      rcases s.request_cases 3#4 stopRefusal State.stopOutcome with ⟨-, he⟩ | ⟨-, r, -, he⟩ | ⟨-, -, he⟩ <;> rw [he]
      · exact hi
      · exact hi
      · simp
    · exact hi
  | rls n =>
    rcases hheld h with h | rfl
    · cases h
      rcases s.request_cases 9#4 (rlsRefusal n) (rlsEffect n) with ⟨-, he⟩ | ⟨-, r, -, he⟩ | ⟨-, -, he⟩ <;> rw [he]
      · exact hi
      · exact hi
      · show (rlsEffect n s).acq.state = _
        unfold rlsEffect
        split
        · exact hi
        · rw [if_neg (by rw [hi]; decide)]
          exact hi
    · exact hi
  | rowCommit =>
    rcases hheld h with h | rfl
    · have hrun : s.timerRunning = false := by rw [State.timerRunning, hi]; rfl
      split at h
      · rw [hrun] at h
        cases h
        exact hi
      · cases h
        exact hi
    · exact hi
  | _ => exact hkept (by simp [touched])

/-- Settles O17: only a write of TDATA touches tables and writer row beside a row commit. -/
theorem configurationMovesOnlyBy : Obligations.ConfigurationMovesOnlyBy := by
  intro c s t hw hpower h
  refine ⟨fun hi => ?_, fun hi harm => idle_stays hw hpower harm h hi, fun hcommit htdata => ?_, fun hcommit hsrst => ?_⟩
  · by_cases hc : ∃ w, c = .tdataWrite w
    · obtain ⟨w, rfl⟩ := hc
      exact tdataWrite_sameConfig h (by simpa [State.acqIdle] using hi)
    · have hfree : Part.slots ∉ touched c ∧ Part.cfg ∉ touched c := by
        cases c with
        | powerOnReset held gate edges => exact absurd rfl (hpower held gate edges)
        | tdataWrite w => exact absurd ⟨w, rfl⟩ hc
        | _ => simp [touched]
      exact SameConfig.of_kept (exec_kept (p := .slots) hw h (by decide) hfree.1)
        (exec_kept (p := .cfg) hw h (by decide) hfree.2)
  · refine exec_kept (p := .writer) hw h (by decide) ?_
    cases c with
    | powerOnReset held gate edges => exact absurd rfl (hpower held gate edges)
    | tdataWrite w => exact absurd rfl (htdata w)
    | rowCommit => exact absurd rfl hcommit
    | _ => simp [touched]
  · refine exec_kept (p := .committed) hw h (by decide) ?_
    cases c with
    | powerOnReset held gate edges => exact absurd rfl (hpower held gate edges)
    | srst => exact absurd rfl hsrst
    | rowCommit => exact absurd rfl hcommit
    | _ => simp [touched]

/-! ## Refusals in order (R50, R71, R102, R139) -/

/-- The reason found agrees with the list of conditions. -/
def Decides (o : Option Reason) (checks : List (Prop × Reason)) : Prop :=
  (∀ r, FirstFailure checks r → o = some r) ∧ (AllHold checks → o = none)

theorem Decides.nil : Decides none [] := ⟨fun _ h => h.elim, fun _ => rfl⟩

theorem Decides.cons {b p : Prop} [Decidable b] {q : Reason} {o : Option Reason} {rest : List (Prop × Reason)}
    (hp : p ↔ ¬b) (h : Decides o rest) : Decides (if b then some q else o) ((p, q) :: rest) := by
  constructor
  · rintro r (⟨hn, rfl⟩ | ⟨hy, hr⟩)
    · rw [if_pos (by_contra fun hb => hn (hp.mpr hb))]
    · rw [if_neg (hp.mp hy)]
      exact h.1 r hr
  · rintro ⟨hy, hall⟩
    rw [if_neg (hp.mp hy)]
    exact h.2 hall

/-- A request refused for the first condition that fails, INIT being the first (R14, R170). -/
theorem request_refused {code : BitVec 4} {check : State → Option Reason} {act : State → State}
    {checks : List (Prop × Reason)} {r : Reason} (hh : s.held = false) (hd : Decides (check s) checks)
    (hr : FirstFailure ((s.sweeping = false, .init) :: checks) r) :
    ∃ t, s.unlessHeld (.next (s.request code check act)) = .next t ∧ RefusedWith code r s t := by
  rw [State.unlessHeld_of hh]
  rcases hr with ⟨hs, rfl⟩ | ⟨hs, hr⟩
  · rw [State.request_init (by simpa using hs)]
    exact ⟨_, rfl, s.refuse_refusedWith code _⟩
  · rw [State.request_refused hs (hd.1 r hr)]
    exact ⟨_, rfl, s.refuse_refusedWith code r⟩

/-- A request accepted because every condition holds. -/
theorem request_accepted {code : BitVec 4} {check : State → Option Reason} {act : State → State}
    {checks : List (Prop × Reason)} (hh : s.held = false) (hd : Decides (check s) checks)
    (hr : AllHold ((s.sweeping = false, .init) :: checks)) :
    s.unlessHeld (.next (s.request code check act)) = .next ((act s).outcome code .accepted) := by
  rw [State.unlessHeld_of hh, State.request_accepted hr.1 (hd.2 hr.2)]

/-- A frame, block by block. -/
theorem keptBut_of {bs : List Block} (h : ∀ b, b ∈ bs ∨ b.same s t) : KeptBut bs s t := fun b hb => (h b).resolve_left hb

/-! ### ARM -/

theorem slots_uncrossed :
    (∀ i : Fin 16, s.cnv.slots[i].limits = true → s.cnv.slots[i].low.toNat ≤ s.cnv.slots[i].high.toNat) ↔
      ¬s.cnv.slots.toList.any Slot.crossed = true := by
  rw [Vector.any_toList, Bool.not_eq_true, Vector.any_eq_false]
  simp [Slot.crossed, Fin.forall_iff]

theorem armRefusal_decides (s : State) : Decides (armRefusal s) (armChecks s).tail := by
  refine .cons ?_ (.cons ?_ (.cons ?_ (.cons slots_uncrossed (.cons ?_ (.cons ?_ .nil)))))
  · simp [State.acqIdle]
  · simp
  · simp
  · cases s.ble.running <;> simp
  · rw [State.lowestFree_eq_none]; simp

/-- Settles O22: the refusals by their order, the effect by the blocks that ARM writes. -/
theorem armDecided : Obligations.ArmDecided := by
  intro s hh
  refine ⟨fun r hr => request_refused hh (armRefusal_decides s) hr, fun n hall hn hlow => ?_⟩
  have hfree : s.lowestFree = some n := State.lowestFree_eq_some.mpr ⟨hn, hlow⟩
  have heffect : armEffect s = { (s.allocate n).startTimer with tru := ⟨false, false, false, 0, s.tru.sample⟩ } := by
    rw [armEffect, hfree]
  refine ⟨_, request_accepted hh (armRefusal_decides s) hall, ?_⟩
  rw [heffect]
  exact ⟨rfl, rfl, fun m => State.allocate_get .., rfl, rfl, rfl,
    keptBut_of fun b => by cases b <;> simp [Block.same]⟩

/-! ### STOP -/

theorem stopRefusal_decides (s : State) : Decides (stopRefusal s) (stopChecks s).tail :=
  .cons (by simp [State.acqIdle]) .nil

/-- The open record at the end of an acquisition: freed, or sealed TRUNCATED in POST (R66, R98). -/
theorem endRecord_get (hs : RecordsSound s) (n : Fin 8) :
    s.endRecord.rtb.recs[n] =
      if s.acq.state = .pre n ∨ s.acq.state = .waittrig n then Descriptor.free
      else if s.acq.state = .post n then { s.rtb.recs[n] with state := .sealed, truncated := true }
      else s.rtb.recs[n] := by
  unfold State.endRecord
  cases hst : s.acq.state with
  | idle | starved => simp
  | pre m | waittrig m =>
    rw [State.freeRec_get]
    simp [eq_comm (a := m)]
  | post m =>
    have hpins : s.rtb.recs[m].pins = 0 := pins_zero hs (by rw [(hs.1 m).mpr (by rw [hst]; rfl)]; decide)
    simp only [State.sealRec_get, reduceCtorEq, or_self, if_false, AcqState.post.injEq, eq_comm (a := m)]
    split
    · next h => rw [h, ← hpins]
    · rfl

/-- The sealing order at the end of an acquisition. -/
theorem endRecord_order (hs : RecordsSound s) :
    s.endRecord.rtb.order = (match s.acq.state with | .post n => s.rtb.order ++ [n] | _ => s.rtb.order) := by
  have hout : ∀ n, s.acq.state.openRec = some n → s.rtb.order.filter (· != n) = s.rtb.order := fun n ho => by
    rw [List.filter_eq_self]
    intro m hm
    have hm' := (hs.2.2.1 m).mp hm
    simpa using ne_of_sealed hs ho hm'
  unfold State.endRecord
  cases hst : s.acq.state with
  | idle | starved => rfl
  | pre n | waittrig n => exact hout n (by rw [hst]; rfl)
  | post n => rfl

theorem endRecord_evu (s : State) :
    s.endRecord.evu =
      (match s.acq.state with
        | .post _ => { s.evu with sticky := { s.evu.sticky with sealed := true } }
        | _ => s.evu) := by
  unfold State.endRecord
  cases s.acq.state <;> rfl

/-- Settles O23: the STOP outcome block by block. -/
theorem stopDecided : Obligations.StopDecided := by
  intro s hh
  refine ⟨fun r hr => request_refused hh (stopRefusal_decides s) hr, fun hall hs => ?_⟩
  refine ⟨_, request_accepted hh (stopRefusal_decides s) hall, ?_⟩
  simp only [State.outcome_acq, State.outcome_cnv, State.outcome_stm, State.outcome_tru, State.stopOutcome_acq,
    State.stopOutcome_cnv, State.stopOutcome_stm, State.stopOutcome_tru, true_and]
  exact ⟨endRecord_get hs, endRecord_order hs, endRecord_evu s, by simp [AcceptedAs],
    keptBut_of fun b => by cases b <;> simp [Block.same]⟩

/-! ### TRIG -/

theorem trigRefusal_decides (s : State) : Decides (trigRefusal s) (trigChecks s).tail := by
  have hif : trigRefusal s =
      if s.acq.state.latching = false then some .notArmed else if s.acq.cfg.mask.host = false then some .masked else none := by
    unfold trigRefusal AcqState.latching
    cases s.acq.state <;> cases s.acq.cfg.mask.host <;> rfl
  rw [hif]
  refine .cons ?_ (.cons (by simp) .nil)
  unfold AcqState.latching
  cases s.acq.state <;> simp

/-- Settles O24: the refusals by their order, and the latch. -/
theorem trigDecided : Obligations.TrigDecided := by
  intro s hh
  refine ⟨fun r hr => request_refused hh (trigRefusal_decides s) hr, fun hall => ?_⟩
  refine ⟨_, request_accepted hh (trigRefusal_decides s) hall, rfl, rfl, ?_⟩
  exact keptBut_of fun b => by cases b <;> simp [Block.same, trigEffect]

/-! ### ABORT -/

theorem abortRefusal_decides (s : State) : Decides (abortRefusal s) (abortChecks s).tail := by
  refine .cons ?_ .nil
  cases s.ble <;> simp [Engine.running]

/-- ABORT answers at once a command in XWAIT, and in RUN one whose element has not begun (R141). -/
theorem abortEffect_answers {r : Running}
    (h : s.ble = .xwait r ∨ (s.ble = .run r ∧ r.busy = false ∧ r.reads = [] ∧ r.aborting = false)) :
    abortEffect s = (s.post r.cmd .aborted r.progress .none).emptyXf := by
  rcases h with hb | ⟨hb, h1, h2, h3⟩
  · rw [abortEffect, hb]
  · rw [abortEffect, hb]
    simp [Running.begun, h1, h2, h3]

/-- ABORT marks a command whose element has begun (R140). -/
theorem abortEffect_marks {r : Running} (hb : s.ble = .run r) (h : r.busy = true ∨ r.reads ≠ [] ∨ r.aborting = true) :
    abortEffect s = { s with ble := .run { r with aborting := true } } := by
  rw [abortEffect, hb]
  dsimp only
  split
  · next ha => rw [← ha, ← hb]
  · next ha =>
    rw [if_pos]
    rcases h with h | h | h
    · simp [Running.begun, h]
    · simp [Running.begun, h]
    · exact absurd h ha

/-- Settles O26: the refusals by their order, then the answer at once or the mark. -/
theorem abortDecided : Obligations.AbortDecided := by
  intro s hh
  refine ⟨fun r hr => request_refused hh (abortRefusal_decides s) hr, fun hs r => ⟨fun hb hp => ?_, fun hb h => ?_⟩⟩
  · have hrun : s.ble ≠ .idle := by rcases hb with hb | ⟨hb, -⟩ <;> rw [hb] <;> simp
    refine ⟨_, request_accepted hh (abortRefusal_decides s) ⟨hs, hrun, trivial⟩, ?_⟩
    rw [abortEffect_answers hb]
    have hpost := State.post_answered (c := r.cmd) (st := .aborted) (progress := r.progress) (d := .none) hp
    exact ⟨hpost, rfl, rfl, keptBut_of fun b => by cases b <;> simp [Block.same]⟩
  · refine ⟨_, request_accepted hh (abortRefusal_decides s) ⟨hs, by rw [hb]; simp, trivial⟩, ?_⟩
    rw [abortEffect_marks hb h]
    exact ⟨rfl, rfl, keptBut_of fun b => by cases b <;> simp [Block.same]⟩

/-! ### INIT and BAD_CODE -/

/-- During the sweep a request is refused with INIT (R14). -/
theorem exec_request_init {c : Instr} {code : BitVec 4} {check : State → Option Reason} {act : State → State}
    (hh : s.held = false) (hs : s.sweeping = true) (hc : exec c s = s.unlessHeld (.next (s.request code check act))) :
    ∃ t, exec c s = .next t ∧ RefusedWith code .init s t := by
  rw [hc, State.unlessHeld_of hh, State.request_init hs]
  exact ⟨_, rfl, s.refuse_refusedWith code .init⟩

/-- Settles O21: each request by its own row. -/
theorem initAndBadCodeRefusals : Obligations.InitAndBadCodeRefusals := by
  intro s n code hh hcode
  have hbad := HostPortMoves.exec_badCodeRequest hcode hh
  refine ⟨fun hs => ?_, fun hs => ?_⟩
  · rw [List.forall_mem_cons, List.forall_mem_cons, List.forall_mem_cons, List.forall_mem_cons, List.forall_mem_cons,
      List.forall_mem_cons, List.forall_mem_cons, List.forall_mem_cons, List.forall_mem_singleton]
    refine ⟨exec_request_init hh hs (c := .arm) rfl, exec_request_init hh hs (c := .stop) rfl,
      exec_request_init hh hs (c := .trig) rfl, exec_request_init hh hs (c := .submit) rfl,
      exec_request_init hh hs (c := .abort) rfl, exec_request_init hh hs (c := .flush) rfl,
      exec_request_init hh hs (c := .pop) rfl, exec_request_init hh hs (c := .rls n) rfl, ?_⟩
    rw [hs] at hbad
    exact ⟨_, hbad, s.refuse_refusedWith code .init⟩
  · rw [hs] at hbad
    exact ⟨_, hbad, s.refuse_refusedWith code .badCode⟩

end Sys2Proof.Machine.Steps
end

section
/-! SUPPORT. The resets with the write in service, the end of the sweep, and the state right after reset. -/

namespace Sys2Proof.Machine.Steps

variable {s t u : State}

/-! ## The write that a soft reset completes (R16, R143) -/

/-- The next access is a write of `w`: by the kind's number (R126 to R129, R131, R146). -/
theorem nextWrite_iff (r : Running) (w : Word) :
    s.nextWrite r = some w ↔
      ((r.cmd.kindNumber = 2 ∧ w = r.cmd.param) ∨ (r.cmd.kindNumber = 6 ∧ ∃ rest, s.xf.words = w :: rest) ∨
        (r.cmd.kindNumber = 1 ∧ r.cmd.op = some .copy ∧ ∃ rest, r.reads = w :: rest) ∨
        (r.cmd.kindNumber = 1 ∧
          ∃ op a b rest, r.cmd.op = some op ∧ op ≠ .copy ∧ r.reads = a :: b :: rest ∧ w = combine op a b)) := by
  obtain ⟨-, -, k1, k2, -, -, -, k6⟩ := r.cmd.kind_spec
  rw [← k1, ← k2, ← k6]
  unfold State.nextWrite
  cases hk : r.cmd.kind with
  | none => simp
  | some k =>
    cases k with
    | srch | rduc | xrd => simp
    | fill => simp [eq_comm]
    | xwr => cases s.xf.words <;> simp
    | move =>
      cases ho : r.cmd.op with
      | none => simp
      | some op =>
        cases hr : r.reads with
        | nil => cases op <;> simp
        | cons a as => cases as <;> cases op <;> simp [eq_comm]

/-- With no write in service nothing is completed. -/
theorem finishWrite_none (h : ∀ r w, ¬WriteInService s r w) : finishWrite s = s := by
  unfold finishWrite
  split
  · next r hb =>
    split
    · next hbusy =>
      split
      · next w a hw _ => exact absurd ⟨hb, hbusy, (nextWrite_iff r w).mp hw⟩ (h r w)
      · rfl
    · rfl
  · rfl

/-- The write in service is completed. -/
theorem finishWrite_stores {r : Running} {w : Word} {a : Nat} (h : WriteInService s r w)
    (ha : r.cmd.elementAddr r.cmd.dest s.acq.cfg s.rtb r.progress = some a) : finishWrite s = s.store a w := by
  obtain ⟨hb, hbusy, hw⟩ := h
  rw [finishWrite, hb]
  simp [hbusy, (nextWrite_iff r w).mpr hw, ha]

/-- The write in service touches the sheet alone. -/
theorem finishWrite_sheet (s : State) : ∃ cells, finishWrite s = { s with sst := { s.sst with cells := cells } } := by
  unfold finishWrite
  split
  · split
    · split
      · exact ⟨_, rfl⟩
      · exact ⟨s.sst.cells, rfl⟩
    · exact ⟨s.sst.cells, rfl⟩
  · exact ⟨s.sst.cells, rfl⟩

/-- The record table after the STOP outcome, every pin gone (R98, R99). -/
theorem endRecord_unpinned (hs : RecordsSound s) (n : Fin 8) :
    ({ s.endRecord.rtb.recs[n] with pins := 0 } : Descriptor) =
      if s.acq.state = .pre n ∨ s.acq.state = .waittrig n then Descriptor.free
      else if s.acq.state = .post n then { s.rtb.recs[n] with state := .sealed, truncated := true, pins := 0 }
      else { s.rtb.recs[n] with pins := 0 } := by
  rw [endRecord_get hs]
  split
  · rfl
  · split <;> rfl

/-- Settles O20: the STOP outcome and the values of R172, with the write in service beside them. -/
theorem softResetValues : Obligations.SoftResetValues := by
  intro s hh hs hsheet
  obtain ⟨cells, hfinish⟩ := finishWrite_sheet s
  have hexec : exec .srst s = .next (softReset (finishWrite s).stopOutcome) := State.unlessHeld_of hh
  have hsst : (softReset (finishWrite s).stopOutcome).sst = (finishWrite s).sst := by simp
  have hrecs : RecordsSound (finishWrite s) := by rw [hfinish]; exact hs
  have hrec : ∀ n : Fin 8, (softReset (finishWrite s).stopOutcome).rtb.recs[n] = _ := fun n =>
    (RecordTable.unpinAll_get ..).trans (endRecord_unpinned hrecs n)
  have horder : (softReset (finishWrite s).stopOutcome).rtb.order = _ := endRecord_order hrecs
  refine ⟨_, hexec, ?_, ?_, ?_, ?_, fun n => ?_, ?_, ?_, rfl, rfl, rfl, rfl, rfl, ?_, ?_, ?_, ?_, fun hno => ?_,
    fun r w a hw ha => ?_⟩
  · simp [hfinish]
  · simp [hfinish]
  · simp [hfinish]
  · simp [hfinish]
  · rw [hrec n, hfinish]
  · rw [horder, hfinish] <;> rfl
  · simp [hfinish]
  · simp [hfinish, hh]
  · simp [hfinish]
  · simp [hfinish]
  · rw [hsst, hfinish]
  · rw [hsst, finishWrite_none hno]
  · have hstored := State.store_stored hsheet (a := a) w
    rw [Stored, hsst, finishWrite_stores hw ha]
    exact hstored

/-! ## The end of the sweep -/

/-- Settles O19: the last word clears the sheet and stands the sweep at its end. -/
theorem sweepEndClearsTheSheet : Obligations.SweepEndClearsTheSheet := by
  intro s
  refine ⟨fun hh hs => ⟨sweepEnd s, ?_, fun a => ?_, ?_, ?_, rfl, ?_⟩, fun hs => ?_⟩
  · show execInitSweepEnd s = _
    rw [execInitSweepEnd, State.unlessHeld_of hh, if_pos hs]
  · rw [State.wordAt_eq_read (by simp [State.sweeping, sweepEnd])]
    rfl
  · simp [State.sweeping, sweepEnd]
  · simp [State.countWord, sweepEnd, Config.sheetWords, Config.sheetCols]
  · exact keptBut_of fun b => by cases b <;> simp [Block.same, sweepEnd]
  · show execInitSweepEnd s = _
    rw [execInitSweepEnd, if_neg (by simp [hs])]
    cases hh : s.held with
    | true => exact State.unlessHeld_held hh
    | false => exact State.unlessHeld_of hh

/-! ## Power-on reset -/

/-- While a power-on reset lasts no row but a power-on reset and the two reads has an effect (R174). -/
theorem exec_held {c : Instr} (hh : s.held = true) (hpower : ∀ h g e, c ≠ .powerOnReset h g e) (hx : c ≠ .xdataRead)
    (htd : c ≠ .tdataRead) : exec c s = .next s := by
  have helem : ∀ sel f, s.onElement sel f = .next s := fun sel f => State.unlessHeld_held hh
  cases c with
  | powerOnReset held gate edges => exact absurd rfl (hpower held gate edges)
  | xdataRead => exact absurd rfl hx
  | tdataRead => exact absurd rfl htd
  | moveCopy | moveAdds | moveSubs | moveMin | moveMax | moveMean | fill | srchAbove | srchBelow | srchRise | srchFall
  | srchFlagged | srchMarked | srchVoided | rduc | xrd | xwr => exact helem _ _
  | _ => exact State.unlessHeld_held hh

/-- The part after a power-on reset that has ended, with the model's own fields. -/
def poweredOn (gate scan trig : Bool) (n : Nat) (p : List Instr) : State :=
  { State.powerOn gate scan trig with conversions := n, pending := p }

theorem poweredOn_irq (gate scan trig : Bool) (n : Nat) (p : List Instr) : (poweredOn gate scan trig n p).irq = false := by
  simp [poweredOn, State.powerOn, State.irq]

theorem poweredOn_countWords (gate scan trig : Bool) (n : Nat) (p : List Instr) :
    (List.range 8).map (poweredOn gate scan trig n p).countWord =
      [0#16, 0#16, 0#16, 0#16, 15#16, 15#16, 8#16, 0#16] := by
  have hrange : List.range 8 = [0, 1, 2, 3, 4, 5, 6, 7] := rfl
  rw [hrange]
  simp [State.countWord, poweredOn, State.powerOn, State.oldest, AcqState.openRec, recordNumber]

/-- TICKET alone is shown (R163). -/
theorem poweredOn_eventsWord (gate scan trig : Bool) (n : Nat) (p : List Instr) :
    (poweredOn gate scan trig n p).eventsWord = 2#16 := by
  have hflags : (poweredOn gate scan trig n p).flags =
      [false, true, false, false, false, false, false, false, false, false, false, false, false, false] := rfl
  rw [State.eventsWord, hflags]
  rfl

/-- Settles O18: the values block by block, the held reset by the rows. -/
theorem powerOnResetValues : Obligations.PowerOnResetValues := by
  refine ⟨fun g x l s => ?_, fun s hh => ⟨?_, fun o => ?_, fun hp => ?_, fun c hc => ?_, fun c => exec_held hh⟩⟩
  · refine ⟨poweredOn g x l s.conversions s.pending, rfl, rfl, rfl, rfl, rfl, rfl, rfl, rfl, rfl, rfl, rfl,
      poweredOn_irq .., rfl, rfl, rfl, rfl, fun n => ?_, fun n => ?_, rfl, poweredOn_countWords .., rfl, rfl, rfl,
      poweredOn_eventsWord .., rfl, rfl, rfl, rfl⟩
    · simp [poweredOn, State.powerOn]
    · simp [poweredOn, State.powerOn, Slot.reset]
  · simp [State.irq, hh]
  · simp [State.readWindow, hh]
  · rw [step_nil hp, idle, if_pos hh]
  · rcases List.mem_pair.mp hc with rfl | rfl
    · show execXdataRead s = _
      rw [execXdataRead, if_pos hh]
      rfl
    · show execTdataRead s = _
      rw [execTdataRead, if_pos hh]
      rfl

/-! ## Right after reset -/

/-- Settles O5: after reset nothing is held, queued or running. -/
theorem resetIsSound : Obligations.ResetIsSound := by
  have hfree : ∀ n : Fin 8, State.reset.rtb.recs[n] = Descriptor.free := fun n => by simp [State.reset, State.powerOn]
  have hstate : ∀ n : Fin 8, State.reset.rtb.recs[n].state = .free := fun n => by rw [hfree]; rfl
  have hopened : ∀ n : Fin 8, State.reset.rtb.recs[n].state ≠ .opened := fun n => by rw [hstate]; decide
  have hsealed : ∀ n : Fin 8, State.reset.rtb.recs[n].state ≠ .sealed := fun n => by rw [hstate]; decide
  have hno : ∀ n, State.reset.acq.state.openRec ≠ some n := fun n h => by cases h
  have hidle : State.reset.acqIdle = true := rfl
  have hbusy : State.reset.acqIdle ≠ false := by rw [hidle]; decide
  have hring : RingSound State.reset := by simp [RingSound, State.reset, State.powerOn, AcqTable.reset]
  have hranges : RangesSound State.reset := by
    simp [RangesSound, State.reset, State.powerOn, AcqTable.reset, TableName.size]
  have hrecs : RecordsSound State.reset :=
    ⟨fun n => iff_of_false (hopened n) (hno n), List.nodup_nil, fun n => iff_of_false List.not_mem_nil (hsealed n),
      fun n _ => hfree n, fun n h => absurd h (hopened n)⟩
  have hpins : PinsSound State.reset := ⟨fun n => by rw [hfree]; rfl, fun _ hc => absurd hc List.not_mem_nil⟩
  have hshapes : ShapesSound State.reset :=
    ⟨fun n h => absurd (hstate n) h, fun n h => absurd h (hsealed n), trivial⟩
  have harcs : ArcsSound State.reset :=
    ⟨fun m _ _ h => absurd (hstate m) h, fun n h => absurd h (hno n), fun _ h => nomatch h⟩
  exact ⟨⟨rfl, Nat.zero_le _⟩, fun _ => ⟨rfl, rfl, rfl, rfl, State.allFree_iff.mpr hstate⟩, hring, hranges, ⟨rfl, rfl⟩,
    hrecs, scanSound_of_free rfl (fun h => absurd h hbusy), timerSound_of_stopped rfl rfl,
    ⟨fun _ hc => absurd hc List.not_mem_nil, rfl, rfl⟩, hpins, hshapes, harcs, fun h => absurd h hbusy,
    latchesSound_of_clear rfl rfl fun n h => absurd (congrArg AcqState.openRec h) (hno n)⟩

end Sys2Proof.Machine.Steps
end

section
/-! SUPPORT. The acquisition path: scan events and line samples, the end of a slot, the trigger decision and the row
commit. -/

namespace Sys2Proof.Machine.Steps

variable {s t u : State}

/-! ## Scan events (R19 to R26) -/

/-- A scan event with no scan in progress starts one at slot 0 (R25). -/
theorem scanEvent_starts (h : s.cnv.scan = .free) :
    s.scanEvent = { s with cnv := { s.cnv with scan := .converting ⟨[], 0, 0, 0⟩ } } := by
  rw [State.scanEvent, h]

/-- A scan event with one in progress is a late scan (R26). -/
theorem scanEvent_late {n : Fin 8} (h : s.cnv.scan ≠ .free) (ho : s.acq.state.openRec = some n) :
    s.scanEvent =
      ((s.countDrop.setSticky { s.evu.sticky with late := true }).setRec n { s.rtb.recs[n] with gap := true }) := by
  unfold State.scanEvent
  split
  · next hf => exact absurd hf h
  · have ho' : (s.countDrop.setSticky { s.evu.sticky with late := true }).acq.state.openRec = some n := ho
    rw [State.setGap, ho']
    rfl

theorem countDrop_dropped (s : State) :
    s.countDrop.acq = { s.acq with dropped := if s.acq.dropped < 65535 then s.acq.dropped + 1 else 65535 } := by
  have hmin : Nat.min (s.acq.dropped + 1) 65535 = if s.acq.dropped < 65535 then s.acq.dropped + 1 else 65535 := by
    show min _ _ = _
    split <;> omega
  rw [State.countDrop, hmin]

/-- What a scan event leaves: a scan at slot 0, or the late scan (R25, R26). -/
def ScanOutcome (s t : State) (n : Fin 8) : Prop :=
  (s.cnv.scan = .free →
      t.cnv = { s.cnv with scan := .converting ⟨[], 0, 0, 0⟩ } ∧ KeptBut [.cnv, .stm] s t) ∧
    (s.cnv.scan ≠ .free →
      t.acq = { s.acq with dropped := if s.acq.dropped < 65535 then s.acq.dropped + 1 else 65535 } ∧
        t.evu = { s.evu with sticky := { s.evu.sticky with late := true } } ∧ t.rtb.order = s.rtb.order ∧
        (∀ m : Fin 8, t.rtb.recs[m] = if m = n then { s.rtb.recs[n] with gap := true } else s.rtb.recs[m]) ∧
        KeptBut [.acq, .evu, .rtb, .stm] s t)

/-- Only the timer differs from the state after the scan event. -/
theorem scanOutcome_of {n : Fin 8} (ho : s.acq.state.openRec = some n) (hK : KeptBut [.stm] s.scanEvent t) :
    ScanOutcome s t n := by
  refine ⟨fun hf => ?_, fun hf => ?_⟩
  · have hframe : KeptBut [.cnv, .stm] s s.scanEvent := by
      rw [scanEvent_starts hf]
      exact keptBut_of fun b => by cases b <;> simp [Block.same]
    rw [scanEvent_starts hf] at hK hframe
    exact ⟨hK .cnv (by simp), hframe.trans (hK.mono (by simp))⟩
  · have hframe : KeptBut [.acq, .evu, .rtb, .stm] s s.scanEvent := by
      rw [scanEvent_late hf ho]
      exact keptBut_of fun b => by cases b <;> simp [Block.same, State.countDrop, State.setRec]
    rw [scanEvent_late hf ho] at hK hframe
    have hacq : t.acq = s.countDrop.acq := hK .acq (by simp)
    have hrtb : t.rtb = (s.countDrop.setRec n { s.rtb.recs[n] with gap := true }).rtb := hK .rtb (by simp)
    refine ⟨hacq.trans (countDrop_dropped s), hK .evu (by simp), by rw [hrtb]; rfl, fun m => ?_,
      hframe.trans (hK.mono (by simp))⟩
    rw [hrtb, State.setRec_get]
    rfl

/-- A scan event leaves the configuration (R26). -/
theorem scanEvent_cfg (s : State) : s.scanEvent.acq.cfg = s.acq.cfg := by
  unfold State.scanEvent
  split <;> simp [State.countDrop]

/-- Settles O31: an expiry and an edge differ in the timer alone. -/
theorem scanEvents : Obligations.ScanEvents := by
  intro s n hh ho
  have hrun : s.timerRunning = true := by rw [State.timerRunning, ho]; rfl
  refine ⟨fun hmode => ?_, fun hmode hscan => ?_⟩
  · have hcount : s.ticksCount = true := by
      rcases hmode with h | ⟨h, hg⟩
      · simp [State.ticksCount, hrun, h]
      · simp [State.ticksCount, hrun, h, hg]
    refine ⟨expiry s, ?_, scanOutcome_of ho (keptBut_of fun b => by cases b <;> simp [Block.same, expiry]), ?_⟩
    · show execTimerExpiry s = _
      rw [execTimerExpiry, State.unlessHeld_of hh, if_pos hcount]
    · simp [expiry, scanEvent_cfg]
  · have hevent : ({ s with stm := { s.stm with scan := true } } : State).scanEvent =
        { s.scanEvent with stm := { s.stm with scan := true } } := by
      by_cases hf : s.cnv.scan = .free
      · rw [scanEvent_starts hf, scanEvent_starts (s := { s with stm := { s.stm with scan := true } }) hf]
      · rw [scanEvent_late hf ho, scanEvent_late (s := { s with stm := { s.stm with scan := true } }) hf ho]
        rfl
    refine ⟨({ s.scanEvent with stm := { s.stm with scan := true } } : State).promote, ?_,
      scanOutcome_of ho (keptBut_of fun b => by cases b <;> simp [Block.same]), ?_⟩
    · show execScanEdge true s = _
      rw [execScanEdge, State.unlessHeld_of hh]
      simp only [hscan, hrun, hmode, hevent]
      rfl
    · simp [scanEvent_cfg]

/-- Settles O32: each sample by its row. -/
theorem lineSamples : Obligations.LineSamples := by
  intro level s hh rising falling active seen
  have hlatch : (s.tru.line ||
      (activeEdge s.acq.cfg.lineFall s.tru.sample level && s.acq.state.latching && s.acq.cfg.mask.line)) = true ↔
        s.tru.line = true ∨ seen := by
    have hstate : s.acq.state.latching = true ↔ ∃ n, s.acq.state = .pre n ∨ s.acq.state = .waittrig n := by
      cases s.acq.state <;> simp [AcqState.latching]
    have hedge : activeEdge s.acq.cfg.lineFall s.tru.sample level = true ↔ active := by
      show _ ↔ if s.acq.cfg.lineFall then s.tru.sample = true ∧ level = false else s.tru.sample = false ∧ level = true
      unfold activeEdge
      cases s.acq.cfg.lineFall <;> cases s.tru.sample <;> cases level <;> simp
    rw [Bool.or_eq_true, Bool.and_eq_true, Bool.and_eq_true, hstate, hedge, and_assoc]
  refine ⟨State.unlessHeld_of hh, fun hno => ?_, fun hno => ?_, fun hseen => ?_, fun hseen => ?_⟩
  · show execScanEdge level s = _
    rw [execScanEdge, State.unlessHeld_of hh, if_neg]
    rcases hno with h | h | h | h <;> simp [h]
  · show execTimerExpiry s = _
    rw [execTimerExpiry, State.unlessHeld_of hh, if_neg]
    rcases hno with h | h | ⟨h, hg⟩
    · simp [State.ticksCount, h]
    · simp [State.ticksCount, h]
    · simp [State.ticksCount, h, hg]
  · show execTrigEdge level s = _
    rw [execTrigEdge, State.unlessHeld_of hh, hlatch.mpr (.inr hseen)]
  · show execTrigEdge level s = _
    have hsame : (s.tru.line ||
        (activeEdge s.acq.cfg.lineFall s.tru.sample level && s.acq.state.latching && s.acq.cfg.mask.line)) = s.tru.line := by
      rw [Bool.eq_iff_iff, hlatch]
      exact or_iff_left hseen
    rw [execTrigEdge, State.unlessHeld_of hh, hsame]

/-! ## The end of a slot (R32, R36, R37, R39, R41) -/

theorem sum_map_convert_le (slot : Slot) : ∀ codes : List Code, (codes.map slot.convert).sum ≤ 4095 * codes.length
  | [] => Nat.le_refl 0
  | c :: cs => by
    have h1 := Slot.convert_le slot c
    have h2 := sum_map_convert_le slot cs
    simp only [List.map_cons, List.sum_cons, List.length_cons]
    omega

/-- The mean of a slot's conversions is a code (R37). -/
theorem slotMean_le {slot : Slot} {c : Converting} {codes : Vector Code 8} (ht : c.taken ≤ slot.average.num)
    (hsum : c.sum ≤ 4095 * c.taken) : slotSum slot c codes / slot.average.num ≤ 4095 := by
  have hpos := Power.num_pos slot.average
  have hrest := sum_map_convert_le slot ((codes.toList.take slot.average.num).drop c.taken)
  have hlen : ((codes.toList.take slot.average.num).drop c.taken).length ≤ slot.average.num - c.taken := by
    rw [List.length_drop, List.length_take]
    exact Nat.sub_le_sub_right (Nat.min_le_left _ _) _
  have htotal : slotSum slot c codes ≤ 4095 * slot.average.num := by
    unfold slotSum
    omega
  exact Nat.div_le_of_le_mul (by rwa [Nat.mul_comm] at htotal)

/-- The word of a slot that has ended. -/
theorem slotWord_converted {slot : Slot} {c : Converting} {codes : Vector Code 8} (ht : c.taken ≤ slot.average.num)
    (hsum : c.sum ≤ 4095 * c.taken) : ConvertedWord slot c codes (slotWord slot c codes) := by
  obtain ⟨h1, h2, h3, h4, h5⟩ :=
    validWord_spec (slotSum slot c codes / slot.average.num)
      (slot.limits && decide (slotSum slot c codes / slot.average.num < slot.low.toNat))
      (slot.limits && decide (slot.high.toNat < slotSum slot c codes / slot.average.num)) false (slotMean_le ht hsum)
  have hcode : codeOf (slotWord slot c codes) = slotSum slot c codes / slot.average.num := h5
  refine ⟨hcode, ?_, ?_, h1, h4⟩
  · rw [hcode]; exact h3
  · rw [hcode]; exact h2

/-- SLOT_END of a slot of the list. -/
theorem exec_slotEnd {codes : Vector Code 8} {c : Converting} {i : Fin 16} (hh : s.held = false)
    (hc : s.cnv.scan = .converting c) (hi : c.buffer.length = i.val) :
    exec (.slotEnd codes) s =
      .next
        (if c.buffer.length + 1 < s.acq.cfg.listLength then
          { s with cnv := { s.cnv with scan := .converting ⟨c.buffer ++ [slotWord s.cnv.slots[i] c codes], 0, 0, 0⟩ } }
        else present (c.buffer ++ [slotWord s.cnv.slots[i] c codes]) s) := by
  have hlt : c.buffer.length < 16 := by omega
  have hslot : s.cnv.slots[c.buffer.length] = s.cnv.slots[i] := by simp [hi]
  show execSlotEnd codes s = _
  rw [execSlotEnd, State.unlessHeld_of hh, hc]
  simp only [hlt, dif_pos, hslot, List.length_append, List.length_singleton]

/-- Settles O33: short of the list's end the next slot starts. -/
theorem slotEndConverts : Obligations.SlotEndConverts := by
  intro codes s c i hh hc hi hl ht hsum
  refine ⟨_, slotWord s.cnv.slots[i] c codes, exec_slotEnd hh hc hi, ?_, slotWord_converted ht hsum, ?_⟩
  · rw [if_pos hl]
  · rw [if_pos hl]
    exact keptBut_of fun b => by cases b <;> simp [Block.same]

/-- The membership rule with its non-negative remainder (R8). -/
theorem holds_iff_emod {cfg : AcqTable} {d : Descriptor} {r : Nat} (h : d.start ≤ r + cfg.ringLength) :
    d.holds cfg r = true ↔ ((r : Int) - d.start) % cfg.ringLength < d.length := by
  have hcast : ((r : Int) - d.start) % cfg.ringLength = ((r + cfg.ringLength - d.start) % cfg.ringLength : Nat) := by
    rw [Int.natCast_emod, Nat.cast_sub h, Nat.cast_add]
    rw [show ((r : Int) + cfg.ringLength - d.start) = r - d.start + cfg.ringLength by ring, Int.add_emod_right]
  rw [Descriptor.holds, decide_eq_true_eq, hcast]
  exact Nat.cast_lt.symm

theorem blocked_iff_writerBlocked (hr : RingSound s) (hs : ShapesSound s) : s.blocked = true ↔ WriterBlocked s := by
  obtain ⟨-, -, -, hlow, -⟩ := hr
  obtain ⟨hheld, -⟩ := hs
  rw [State.blocked_iff]
  refine exists_congr fun n => and_congr_right fun hn => ?_
  obtain ⟨h1, h2, -⟩ := hheld n (by rw [hn]; decide)
  exact holds_iff_emod (by omega)

/-- A row dropped for the blocked ring (R63). -/
theorem blockedDrop_eq {n : Fin 8} (ho : s.acq.state.openRec = some n) :
    blockedDrop s =
      ({ s.countDrop with
          cnv := { s.cnv with scan := .free }
          evu := { s.evu with sticky := { s.evu.sticky with blocked := true } } } : State).setRec n
        { s.rtb.recs[n] with gap := true } := by
  have ho' : s.countDrop.acq.state.openRec = some n := ho
  unfold blockedDrop State.setGap
  rw [ho']
  rfl

/-- Settles O34: the row waits, or it is dropped. -/
theorem slotEndPresents : Obligations.SlotEndPresents := by
  intro codes s c i n hh hc hi hl ht hsum ho hring hshapes
  have hlast : ¬c.buffer.length + 1 < s.acq.cfg.listLength := by omega
  have hexec := exec_slotEnd (codes := codes) hh hc hi
  rw [if_neg hlast, present] at hexec
  refine ⟨fun hno => ?_, fun hyes => ?_⟩
  · rw [← blocked_iff_writerBlocked hring hshapes] at hno
    rw [if_neg hno] at hexec
    exact ⟨_, _, hexec, rfl, slotWord_converted ht hsum, keptBut_of fun b => by cases b <;> simp [Block.same]⟩
  · rw [← blocked_iff_writerBlocked hring hshapes] at hyes
    rw [if_pos hyes, blockedDrop_eq ho] at hexec
    refine ⟨_, hexec, rfl, countDrop_dropped s, rfl, rfl, fun m => State.setRec_get .., ?_⟩
    exact keptBut_of fun b => by cases b <;> simp [Block.same, State.countDrop, State.setRec]

/-! ## The trigger decision (R73 to R77) -/

/-- The LIMIT judgement in the words of R74. -/
theorem judges_iff (sense : Sense) (w : Word) :
    sense.judges w = true ↔
      isVoid w = false ∧ ((isOver w = true ∧ sense ≠ .under) ∨ (isUnder w = true ∧ sense ≠ .over)) := by
  unfold Sense.judges
  cases sense <;> simp

theorem countAfter_wait (h : ∃ n, s.acq.state = .waittrig n) : countAfter s = min (s.tru.count + 1) 65535 := by
  obtain ⟨n, hn⟩ := h
  rw [countAfter, hn]

theorem any_iff (m : Sources) :
    m.any = true ↔ m.host = true ∨ m.line = true ∨ m.limit = true ∨ m.count = true := by
  simp [Sources.any, or_assoc]

/-- Settles O35: each source by its own field of `firing`. -/
theorem triggerDecision : Obligations.TriggerDecision := by
  intro s row
  refine ⟨Bool.and_eq_true_iff, Bool.and_eq_true_iff, ?_, ?_, ?_⟩
  · show (s.acq.cfg.mask.limit && s.acq.cfg.sense.judges (row.getD s.acq.cfg.trigSlot.val voidWord) && !s.tru.flagged) =
      true ↔ _
    rw [Bool.and_eq_true, Bool.and_eq_true, judges_iff, Bool.not_eq_true', and_assoc]
  · unfold firing
    rw [Bool.and_eq_true]
    refine and_congr_right fun _ => ?_
    cases hst : s.acq.state with
    | idle | pre | post | starved => simp
    | waittrig n =>
      rw [countAfter_wait ⟨n, hst⟩]
      simp
  · rw [← any_iff]
    unfold triggerTaken
    cases s.acq.state <;> simp

end Sys2Proof.Machine.Steps
end

section
/-! SUPPORT. The row commit: the row it writes, and the open record in each case of R55. -/

namespace Sys2Proof.Machine.Steps

variable {s t u : State} {row : List Word} {n : Fin 8}

/-! ## The row (R3, R55) -/

theorem Continued.holding (h : Continued s t) : t.acq.holding = s.acq.holding := by
  cases h <;> rfl

theorem Committed.holding (h : Committed s row n t) : t.acq.holding = s.acq.holding := by
  cases h with
  | grown => rfl
  | sealed d f hd hf hv => exact hv.holding

theorem commitRow_keptBut (s : State) (row : List Word) : KeptBut [.sst, .cnv, .acq, .tru] s (commitRow s row) :=
  keptBut_of fun b => by
    cases b with
    | held => exact .inr rfl
    | _ => simp [Block.same]

/-- A commit frames what it does not write. -/
theorem commitRecord_keptBut (ho : s.acq.state.openRec = some n) :
    KeptBut [.sst, .cnv, .acq, .tru, .rtb, .stm, .evu] s (commitRecord s row) := by
  obtain ⟨-, -, -, -, -, -, -, -, hkept⟩ := commitRecord_part (s := s) row ho
  exact ((commitRow_keptBut s row).mono (by simp)).trans (hkept.mono (by simp))

/-- The word that a commit writes in a column (R3). -/
theorem commitWord_eq (row : List Word) (trigger : Bool) (j : Nat) :
    commitWord row trigger j =
      if h : j < row.length then (if trigger then setMark row[j] else row[j]) else voidWord := by
  unfold commitWord
  by_cases h : j < row.length
  · rw [List.getElem?_eq_getElem h, dif_pos h]
  · rw [List.getElem?_eq_none (by omega), dif_neg h]

theorem rowWritten_of {trigger : Bool} (hs : SheetSound s) (hw : s.acq.writer < Config.sheetRows)
    (ht : t.sst = { s.sst with cells := Sheet.writeRow s.sst.cells s.acq.writer (commitWord row trigger) }) :
    RowWritten s t row trigger := by
  refine ⟨by rw [ht], fun i j hi hj => ?_⟩
  rw [ht, Sheet.read_writeRow hs.1 hw]
  simp only [Config.sheetCols] at hj ⊢
  by_cases h : i = s.acq.writer
  · rw [if_pos (by omega), if_pos h, h, Nat.add_sub_cancel_left, commitWord_eq]
  · rw [if_neg (by omega), if_neg h]

/-- Settles O36: steps 1 to 4 of the commit, which its record leaves alone. -/
theorem commitWritesRow : Obligations.CommitWritesRow := by
  intro s row n hp ho hserved hring hsheet
  obtain ⟨hsst, hcommitted, hdropped, hcfg, hwriter, hcnv, hsample, henables, -⟩ := commitRecord_part (s := s) row ho
  have hkept := commitRecord_keptBut (row := row) ho
  have hrow : s.acq.writer < Config.sheetRows := by
    obtain ⟨-, -, hbase, -, hhigh⟩ := hring
    simp only [Config.sheetRows]
    omega
  refine ⟨commitRecord s row, exec_rowCommit hp ho hserved hring, rowWritten_of hsheet hrow (commitRecord_sst ho),
    hcommitted, hdropped, (commitRecord_committed row ho).holding, hcfg, hwriter.trans ?_, hcnv, hsample, henables, hkept⟩
  rw [commitRow_acq]
  obtain ⟨h16, -, -, hlow, hhigh⟩ := hring
  show s.acq.cfg.succ s.acq.writer = _
  unfold AcqTable.succ
  split <;> split <;> omega

/-! ## The record that stays open (R56 to R59) -/

theorem commitRecord_pre (hs : s.acq.state = .pre n) (ht : triggerTaken s row = false) :
    commitRecord s row = growPre (commitRow s row) n := by
  rw [commitRecord, hs]
  simp [ht]

theorem commitRecord_wait (hs : s.acq.state = .waittrig n) (ht : triggerTaken s row = false) :
    commitRecord s row = slideWait (commitRow s row) n := by
  rw [commitRecord, hs]
  simp [ht]

theorem commitRecord_post (hs : s.acq.state = .post n) : commitRecord s row = growPost (commitRow s row) n := by
  rw [commitRecord, hs]

theorem commitRecord_trigger (hs : s.acq.state = .pre n ∨ s.acq.state = .waittrig n) (ht : triggerTaken s row = true) :
    commitRecord s row =
      takeTrigger (commitRow s row) n s.acq.committed (firing s row) (decide (s.acq.state = .pre n)) := by
  rcases hs with hs | hs <;> rw [commitRecord, hs] <;> simp [ht]

theorem openRec_cases (ho : s.acq.state.openRec = some n) :
    s.acq.state = .pre n ∨ s.acq.state = .waittrig n ∨ s.acq.state = .post n := by
  cases hs : s.acq.state <;> rw [hs] at ho <;> simp_all [AcqState.openRec]

/-- TRU after a commit, by the ACQ state (R70, R75). -/
theorem truAfter_latching (hs : s.acq.state.latching = true) :
    (truAfter s row).host = false ∧ (truAfter s row).line = false := by
  simp [truAfter, hs]

theorem truAfter_post (hs : s.acq.state = .post n) :
    (truAfter s row).host = s.tru.host ∧ (truAfter s row).line = s.tru.line ∧ (truAfter s row).count = s.tru.count := by
  simp [truAfter, countAfter, hs, AcqState.latching]

/-- Settles O37: the part of the commit that its state calls for. -/
theorem commitGrowsRecord : Obligations.CommitGrowsRecord := by
  intro s row n hp ho hserved hring ht hpost
  have hexec := exec_rowCommit hp ho hserved hring
  rcases openRec_cases ho with hs | hs | hs
  · rw [commitRecord_pre hs ht] at hexec
    obtain ⟨hrecs, horder, hstate, htru, hevu, hstm⟩ := growPre_spec (commitRow s row) n
    obtain ⟨hhost, hline⟩ := truAfter_latching (s := s) (row := row) (by rw [hs]; rfl)
    refine ⟨_, hexec, horder, fun m hm => by rw [hrecs, if_neg hm, commitRow_rtb],
      hevu.trans (commitRow_evu s row), hstm.trans (commitRow_stm s row), by rw [htru, commitRow_tru, truAfter],
      by rw [htru, commitRow_tru, truAfter],
      fun _ => ⟨by rw [hrecs, if_pos rfl, commitRow_rtb], ?_, by rw [htru, commitRow_tru, hhost],
        by rw [htru, commitRow_tru, hline], ?_⟩,
      fun h => absurd (hs.symm.trans h) (by simp), fun h => absurd (hs.symm.trans h) (by simp)⟩
    · rw [hstate, commitRow_acq, ← hs]; rfl
    · rw [htru, commitRow_tru, truAfter, countAfter, hs]
  · rw [commitRecord_wait hs ht] at hexec
    obtain ⟨hrecs, horder, hstate, htru, hevu, hstm⟩ := slideWait_spec (commitRow s row) n
    obtain ⟨hhost, hline⟩ := truAfter_latching (s := s) (row := row) (by rw [hs]; rfl)
    obtain ⟨-, -, -, -, hwriter, -⟩ := slideWait_part (commitRow s row) n
    have hrec : (slideWait (commitRow s row) n).rtb.recs[n] = _ := (hrecs n).trans (if_pos rfl)
    refine ⟨_, hexec, horder, fun m hm => by rw [hrecs, if_neg hm, commitRow_rtb],
      hevu.trans (commitRow_evu s row), hstm.trans (commitRow_stm s row), by rw [htru, commitRow_tru, truAfter],
      by rw [htru, commitRow_tru, truAfter],
      fun h => absurd (hs.symm.trans h) (by simp),
      fun _ => ⟨by rw [hrec, hwriter, commitRow_rtb, commitRow_acq]; rfl,
        hstate.trans hs, by rw [htru, commitRow_tru, hhost],
        by rw [htru, commitRow_tru, hline], ?_⟩,
      fun h => absurd (hs.symm.trans h) (by simp)⟩
    rw [htru, commitRow_tru]
    exact countAfter_wait ⟨n, hs⟩
  · rw [commitRecord_post hs] at hexec
    obtain ⟨hrecs, horder, hstate, htru, hevu, hstm⟩ := growPost_spec (commitRow s row) n (hpost hs)
    obtain ⟨hhost, hline, hcount⟩ := truAfter_post (row := row) hs
    exact ⟨_, hexec, horder, fun m hm => by rw [hrecs, if_neg hm, commitRow_rtb],
      hevu.trans (commitRow_evu s row), hstm.trans (commitRow_stm s row), by rw [htru, commitRow_tru, truAfter],
      by rw [htru, commitRow_tru, truAfter],
      fun h => absurd (hs.symm.trans h) (by simp), fun h => absurd (hs.symm.trans h) (by simp),
      fun _ => ⟨by rw [hrecs, if_pos rfl, commitRow_rtb], hstate.trans hs, by rw [htru, commitRow_tru, hhost],
        by rw [htru, commitRow_tru, hline],
        by rw [htru, commitRow_tru, hcount]⟩⟩

/-- Settles O38: the trigger row opens POST. -/
theorem triggerOpensPost : Obligations.TriggerOpensPost := by
  intro s row n hp hs hserved hring ht hpost
  have ho : s.acq.state.openRec = some n := by rcases hs with hs | hs <;> rw [hs] <;> rfl
  have hlatching : s.acq.state.latching = true := by rcases hs with hs | hs <;> rw [hs] <;> rfl
  have hexec := exec_rowCommit hp ho hserved hring
  rw [commitRecord_trigger hs ht] at hexec
  obtain ⟨hrecs, horder, hstate, htru, hevu, hstm⟩ :=
    takeTrigger_spec (commitRow s row) n s.acq.committed (firing s row) (decide (s.acq.state = .pre n)) hpost
  obtain ⟨hhost, hline⟩ := truAfter_latching (row := row) hlatching
  exact ⟨_, hexec, hstate, horder, hrecs, firing_any ht, hevu, by rw [htru, commitRow_tru, hhost],
        by rw [htru, commitRow_tru, hline],
    by rw [htru, commitRow_tru, truAfter], hstm⟩

/-! ## The seal (R60, R61, R87) -/

/-- A commit that completes the record, with its last row in `d`. -/
theorem commitRecord_seals {d : Descriptor}
    (h : (s.acq.state = .post n ∧ s.rtb.recs[n].post + 1 = s.acq.cfg.postCount ∧
        d = { s.rtb.recs[n] with length := s.rtb.recs[n].length + 1, post := s.rtb.recs[n].post + 1 }) ∨
      (s.acq.state.latching = true ∧ s.acq.state.openRec = some n ∧ triggerTaken s row = true ∧
        s.acq.cfg.postCount = 0 ∧
        d = s.rtb.recs[n].triggered s.acq.committed (firing s row) (decide (s.acq.state = .pre n)))) :
    commitRecord s row =
      ((((commitRow s row).setRec n d).setSticky
        { s.evu.sticky with trigger := s.evu.sticky.trigger || s.acq.state.latching }).sealRec n false).afterSeal := by
  rcases h with ⟨hs, hpost, rfl⟩ | ⟨hlatching, ho, ht, hpost, rfl⟩
  · have hsticky : ({ s.evu.sticky with trigger := s.evu.sticky.trigger || s.acq.state.latching } : Sticky) =
        s.evu.sticky := by
      rw [hs]
      simp [AcqState.latching]
    rw [commitRecord_post hs, growPost_seals (commitRow s row) n hpost, hsticky]
    rfl
  · have hs : s.acq.state = .pre n ∨ s.acq.state = .waittrig n := by
      rcases openRec_cases ho with h | h | h
      · exact .inl h
      · exact .inr h
      · rw [h] at hlatching; cases hlatching
    rw [commitRecord_trigger hs ht, takeTrigger_seals (commitRow s row) n _ _ _ hpost, hlatching, Bool.or_true]
    rfl

/-- Settles O39: the seal of the completed record, and the three ways on. -/
theorem sealContinues : Obligations.SealContinues := by
  intro s row n d hrecs hp hserved hring hd
  have ho : s.acq.state.openRec = some n := by
    rcases hd with ⟨hs, -⟩ | ⟨-, ho, -⟩
    · rw [hs]; rfl
    · exact ho
  have hopened := (hrecs.1 n).mpr ho
  obtain ⟨hpins, htrunc⟩ := hrecs.2.2.2.2 n hopened
  have hdrec : d.pins = 0 ∧ d.truncated = false := by
    rcases hd with ⟨-, -, rfl⟩ | ⟨-, -, -, -, rfl⟩ <;> exact ⟨hpins, htrunc⟩
  have hexec := exec_rowCommit hp ho hserved hring
  have hwriter : (commitRecord s row).acq.writer = (commitRow s row).acq.writer := (commitRecord_part row ho).2.2.2.2.1
  have hsealed := State.afterSeal_sealRec
    (((commitRow s row).setRec n d).setSticky
      { s.evu.sticky with trigger := s.evu.sticky.trigger || s.acq.state.latching }) n
  rw [← commitRecord_seals hd] at hsealed
  have hget : ∀ m : Fin 8, (((commitRow s row).setRec n d).setSticky
      { s.evu.sticky with trigger := s.evu.sticky.trigger || s.acq.state.latching }).rtb.recs[m] =
        if m = n then d else s.rtb.recs[m] := fun m => State.setRec_get (commitRow s row) n m d
  have hother : ∀ m : Fin 8, m ≠ n → (((commitRow s row).setRec n d).setSticky
      { s.evu.sticky with trigger := s.evu.sticky.trigger || s.acq.state.latching }).rtb.recs[m] = s.rtb.recs[m] :=
    fun m hm => by rw [hget, if_neg hm]
  refine ⟨_, hexec, hsealed.order, ?_, hsealed.latches.1, hsealed.latches.2, fun hre => ?_, fun hre k hk hlow => ?_,
    fun hre hnone => ?_⟩
  · rw [hsealed.record, hget, if_pos rfl, ← hdrec.1, ← hdrec.2]
  · obtain ⟨h1, -, h3, h4, h5⟩ := hsealed.idle hre
    exact ⟨h1, h3, h4, fun m hm => (h5 m hm).trans (hother m hm)⟩
  · have hkn : k ≠ n := by
      rintro rfl
      rw [hopened] at hk
      cases hk
    obtain ⟨h1, h2, h3, h4, h5, h6⟩ :=
      hsealed.again hre k hkn (by rw [hother k hkn]; exact hk) fun m hm hmn => by rw [hother m hmn]; exact hlow m hm
    refine ⟨h1, h3, h4, by rw [h2], by rw [h2], ?_, fun m hmn hmk => (h6 m hmn hmk).trans (hother m hmn)⟩
    rw [h5, hwriter]
    rfl
  · obtain ⟨h1, -, h3, h4, h5⟩ := hsealed.starved hre fun m hm => by rw [hother m hm]; exact hnone m
    exact ⟨h1, h3, h4, fun m hm => (h5 m hm).trans (hother m hm)⟩

end Sys2Proof.Machine.Steps
end

section
/-! SUPPORT. The block engine: taking the head command, one element of FILL, SRCH and RDUC, and the whole of each when
nothing disturbs it. -/

namespace Sys2Proof.Machine.Steps

variable {s t u : State}

/-! ## Taking the head command (R120, R121) -/

theorem exec_take {c : Staged} {rest : List Staged} (hh : s.held = false) (hb : s.ble = .idle)
    (hq : s.cq.queue = c :: rest) : exec .take s = .next (takeHead s c rest) := by
  show execTake s = _
  rw [execTake, State.unlessHeld_of hh, hb, hq]

theorem takeHead_starts {c : Staged} {rest : List Staged} (h : s.acq.state = .idle ∨ c.overlapsRing s.acq.cfg = false) :
    takeHead s c rest = startCommand { s with cq := { s.cq with queue := rest }, rq := s.rq ++ [.pending] } c := by
  refine if_neg ?_
  rcases h with h | h
  · simp [State.acqIdle, h]
  · simp [h]

theorem takeHead_busy {c : Staged} {rest : List Staged} (hi : s.acq.state ≠ .idle) (ho : c.overlapsRing s.acq.cfg = true) :
    takeHead s c rest =
      ({ s with cq := { s.cq with queue := rest }, rq := s.rq ++ [.pending] } : State).post c .ringBusy 0 .none :=
  if_pos (by simp [State.acqIdle, hi, ho])

/-- A started command that is no XWR is in RUN. -/
theorem startCommand_run {c : Staged} (hk : c.kindNumber ≠ 6) :
    startCommand s c = { s with ble := .run (Running.start c) } := by
  obtain ⟨-, -, -, -, -, -, -, k6⟩ := c.kind_spec
  exact if_neg fun h => hk (k6.mp h)

/-- An XWR waits for the host at once (R146). -/
theorem startCommand_xwait {c : Staged} (hk : c.kindNumber = 6) :
    startCommand s c = s.toXwait (Running.start c) s.xf.words := by
  obtain ⟨-, -, -, -, -, -, -, k6⟩ := c.kind_spec
  exact if_pos (k6.mpr hk)

/-- Settles O40: the head starts, or the ring is busy. -/
theorem takeDecided : Obligations.TakeDecided := by
  intro s c rest hh hb hq hp
  have hexec := exec_take hh hb hq
  refine ⟨fun h => ?_, fun hi ho => ?_⟩
  · rw [takeHead_starts h] at hexec
    obtain ⟨e1, e2, -⟩ := startCommand_kept { s with cq := { s.cq with queue := rest }, rq := s.rq ++ [.pending] } c
    refine ⟨_, hexec, e1, e2, fun hk => ?_, fun hk => ?_⟩
    · rw [startCommand_run hk]
      exact ⟨rfl, keptBut_of fun b => by cases b <;> simp [Block.same]⟩
    · rw [startCommand_xwait hk]
      exact ⟨rfl, rfl, keptBut_of fun b => by cases b <;> simp [Block.same]⟩
  · rw [takeHead_busy hi ho] at hexec
    refine ⟨_, hexec, rfl, fillPending_append _ [] hp, ⟨rfl, fun n => RecordTable.unpin_get ..⟩, ?_⟩
    exact keptBut_of fun b => by cases b <;> simp [Block.same, hb]

/-! ## One element (R131 to R136) -/

/-- The sheet after an element is the sheet before its end. -/
theorem endElement_sheet (s : State) (r : Running) (answer : Option (Status × Detail)) :
    (s.endElement r answer).sst = s.sst := (s.endElement_sst r answer).1

/-- An element of FILL that the port serves. -/
theorem exec_fill {r : Running} {a : Nat} (hb : s.ble = .run r) (hk : r.cmd.kind = some .fill) (hp : PortServes s r)
    (ha : r.cmd.elementAddr r.cmd.dest s.acq.cfg s.rtb r.progress = some a) :
    exec .fill s = .next ((s.store a r.cmd.param).endElement r.complete (r.complete.doneAnswer .none)) := by
  refine (State.onElement_served hb (by simp [Staged.isKind, hk]) hp).trans ?_
  rw [fillElement, ha]

/-- An element of SRCH that the port serves. -/
theorem exec_srch {cond : Cond} {r : Running} {a : Nat} (hb : s.ble = .run r) (hk : r.cmd.kind = some .srch)
    (hc : r.cmd.cond = some cond) (hp : PortServes s r)
    (ha : r.cmd.elementAddr r.cmd.source s.acq.cfg s.rtb r.progress = some a) :
    exec (srchInstr cond) s =
      .next (s.endElement { r.complete with prev := nextPrev r.prev (s.wordAt a) } (srchAnswer cond r (s.wordAt a))) := by
  have hexec : exec (srchInstr cond) s = s.onElement (Staged.isSrch cond) (srchElement cond) := by
    cases cond <;> rfl
  rw [hexec, State.onElement_served hb (by simp [Staged.isSrch, hk, hc]) hp, srchElement, ha]

/-- An element of RDUC that the port serves. -/
theorem exec_rduc {r : Running} {a : Nat} (hb : s.ble = .run r) (hk : r.cmd.kind = some .rduc) (hp : PortServes s r)
    (ha : r.cmd.elementAddr r.cmd.source s.acq.cfg s.rtb r.progress = some a) :
    exec .rduc s =
      .next
        (s.endElement (rducTake r (s.wordAt a))
          ((rducTake r (s.wordAt a)).doneAnswer (.reduced (rducTake r (s.wordAt a)).stats))) := by
  refine (State.onElement_served hb (by simp [Staged.isKind, hk]) hp).trans ?_
  rw [rducElement, ha]

theorem store_keptBut (s : State) (a : Nat) (w : Word) : KeptBut [.sst] s (s.store a w) :=
  keptBut_of fun b => by cases b <;> simp [Block.same]

/-- Settles O43: the condition on the word read, then the answer. -/
theorem searchElement : Obligations.SearchElement := by
  intro cond s r a hb hk hc hw hp hpend ha hlt w T found i r'
  have hfound : cond.holds T r.prev w = true ↔ found := by
    cases cond <;> simp [Cond.holds, found, Option.any_eq_true]
  have hrow : r.cmd.rowOf r.progress = i := by
    show (if r.cmd.rowDesc then r.cmd.h - 1 - r.progress / r.cmd.w else r.progress / r.cmd.w) = _
    rw [hw, Nat.div_one]
  have hdone := State.endElement_done r' (srchAnswer cond r w) hpend (KeptBut.refl [.sst] s)
  refine ⟨_, exec_srch hb hk hc hp ha, endElement_sheet .., fun hyes => ?_, fun hno => ?_⟩
  · rw [srchAnswer, if_pos (hfound.mpr hyes), hrow] at hdone
    rw [srchAnswer, if_pos (hfound.mpr hyes), hrow]
    exact hdone
  · have hlast : r.cmd.h ≤ r.progress + 1 ↔ r.progress + 1 = r.cmd.h := by omega
    rw [srchAnswer, if_neg fun h => hno (hfound.mp h), if_congr hlast rfl rfl] at hdone
    rw [srchAnswer, if_neg fun h => hno (hfound.mp h), if_congr hlast rfl rfl]
    exact hdone

/-- Settles O45: the statistics take the word, or leave it. -/
theorem reduceElement : Obligations.ReduceElement := by
  intro s r a hb hk hp hpend ha w
  refine ⟨_, (rducTake r w).stats, exec_rduc hb hk hp ha, endElement_sheet .., fun hv => ?_, fun hv => ?_, ?_⟩
  · simp [rducTake, Stats.take, hv]
  · simp only [rducTake, Stats.take, hv, Bool.false_eq_true, if_false, true_and]
    constructor <;> split <;> exact ⟨rfl, rfl, rfl⟩
  · exact State.endElement_done _ _ hpend (KeptBut.refl [.sst] s)

/-! ## A command that nothing disturbs -/

/-- Commands that follow one another, each from the state that the last one left. -/
theorem execTimes_chain {c : Instr} :
    ∀ (n : Nat) (f : Nat → State) (t : State), (∀ e < n, exec c (f e) = .next (f (e + 1))) → exec c (f n) = .next t →
      execTimes c (n + 1) (f 0) = .next t
  | 0, f, t, _, hlast => by simp only [execTimes, hlast]
  | n + 1, f, t, hstep, hlast => by
    have hrest := execTimes_chain n (fun e => f (e + 1)) t (fun e he => hstep (e + 1) (by omega)) hlast
    rw [execTimes, hstep 0 (Nat.succ_pos n)]
    exact hrest

/-- A command with a word has a last element. -/
theorem total_eq_succ {c : Staged} {rtb : RecordTable} (hr : c.rectOk rtb = true) : ∃ n, c.w * c.h = n + 1 := by
  simp only [Staged.rectOk, Bool.and_eq_true, decide_eq_true_eq] at hr
  obtain ⟨⟨⟨h1, -, h2, -⟩, -⟩, -⟩ := hr
  exact Nat.exists_eq_succ_of_ne_zero (Nat.mul_pos h1 h2).ne'

theorem doneAnswer_more {r : Running} {d : Detail} (h : r.progress < r.cmd.total) : r.doneAnswer d = none :=
  if_neg (by omega)

theorem doneAnswer_last {r : Running} {d : Detail} (h : r.cmd.total ≤ r.progress) : r.doneAnswer d = some (.done, d) :=
  if_pos h

/-- A match is answered FOUND with its offset, row and word (R134). -/
theorem srchAnswer_found {cond : Cond} {r : Running} {w : Word} (h : cond.holds r.cmd.threshold r.prev w = true) :
    srchAnswer cond r w = some (.found, .found r.progress (r.cmd.source.line + r.cmd.rowOf r.progress) w) :=
  if_pos h

/-- Short of the last element a search without a match goes on. -/
theorem srchAnswer_none {cond : Cond} {r : Running} {w : Word} (h : cond.holds r.cmd.threshold r.prev w = false)
    (hl : r.progress + 1 < r.cmd.h) : srchAnswer cond r w = none := by
  rw [srchAnswer, if_neg (by simp [h]), if_neg (by omega)]

/-! ### FILL -/

/-- The sheet after the first elements of a FILL. -/
def filled (s : State) (c : Staged) : Nat → List (Nat × Word)
  | 0 => s.sst.cells
  | e + 1 =>
    match c.elementAddr c.dest s.acq.cfg s.rtb e with
    | some a => Sheet.write (filled s c e) a c.param
    | none => filled s c e

/-- The state after the first elements of a FILL. -/
def filling (s : State) (c : Staged) (e : Nat) : State :=
  { s with
    sst := { s.sst with cells := filled s c e }
    ble := .run { Running.start c with progress := e } }

theorem filled_wf (hs : SheetSound s) (c : Staged) : ∀ e, Sheet.wf (filled s c e) = true
  | 0 => hs.1
  | e + 1 => by
    unfold filled
    split
    · next a ha => exact Sheet.wf_write (Coord.addr_lt ha) (filled_wf hs c e)
    · exact filled_wf hs c e

/-- An element's word holds PARAM from then on. -/
theorem read_filled (hs : SheetSound s) (c : Staged) {k : Nat} :
    ∀ n, (∃ e, e < n ∧ c.elementAddr c.dest s.acq.cfg s.rtb e = some k) → Sheet.read (filled s c n) k = c.param
  | 0, ⟨e, he, _⟩ => absurd he (Nat.not_lt_zero e)
  | n + 1, ⟨e, he, hk⟩ => by
    unfold filled
    split
    · next a ha =>
      by_cases hka : k = a
      · rw [hka]; exact Sheet.read_write_self (filled_wf hs c n) a c.param
      · rw [Sheet.read_write_other (filled_wf hs c n) c.param hka]
        refine read_filled hs c n ⟨e, ?_, hk⟩
        rcases Nat.lt_succ_iff_lt_or_eq.mp he with h | rfl
        · exact h
        · exact absurd (Option.some.inj (hk.symm.trans ha)) hka
    · next hnone =>
      refine read_filled hs c n ⟨e, ?_, hk⟩
      rcases Nat.lt_succ_iff_lt_or_eq.mp he with h | rfl
      · exact h
      · rw [hnone] at hk; cases hk

/-- Every other word stays. -/
theorem read_filled_other (hs : SheetSound s) (c : Staged) {k : Nat} :
    ∀ n, (∀ e, e < n → c.elementAddr c.dest s.acq.cfg s.rtb e ≠ some k) →
      Sheet.read (filled s c n) k = Sheet.read s.sst.cells k
  | 0, _ => rfl
  | n + 1, h => by
    have hrest := read_filled_other hs c n fun e he => h e (by omega)
    unfold filled
    split
    · next a ha =>
      rw [Sheet.read_write_other (filled_wf hs c n) c.param, hrest]
      rintro rfl
      exact h n (Nat.lt_succ_self n) ha
    · exact hrest

/-- An element of an undisturbed FILL. -/
theorem exec_filling {c : Staged} {e a : Nat} (hk : c.kind = some .fill) (hp : PortFree s)
    (ha : c.elementAddr c.dest s.acq.cfg s.rtb e = some a) :
    exec .fill (filling s c e) =
      .next
        (({ s with sst := { s.sst with cells := filled s c (e + 1) } } : State).endElement
          { Running.start c with progress := e + 1 }
          (({ Running.start c with progress := e + 1 } : Running).doneAnswer .none)) := by
  have hcells : filled s c (e + 1) = Sheet.write (filled s c e) a c.param := by simp only [filled, ha]
  have hserves : PortServes (filling s c e) { Running.start c with progress := e } := PortFree.serves (s := filling s c e) hp _
  rw [hcells, exec_fill (r := { Running.start c with progress := e }) rfl hk hserves ha]
  rfl

/-- Settles O42: one element, and the chain of all of them. -/
theorem fillFillsItsRectangle : Obligations.FillFillsItsRectangle := by
  refine ⟨fun s r b hb hk hp hsheet hpend ha => ?_, fun s c hb hk hrect hrecs hring hsheet hp hpend => ?_⟩
  · refine ⟨_, exec_fill hb hk hp ha, ?_, State.endElement_done _ _ hpend (store_keptBut s b r.cmd.param)⟩
    rw [Stored, endElement_sheet]
    exact State.store_stored hsheet r.cmd.param
  · obtain ⟨n, hn⟩ := total_eq_succ hrect
    have hstep : ∀ e, e < c.w * c.h → ∃ a, c.elementAddr c.dest s.acq.cfg s.rtb e = some a := fun e he =>
      elementAddr_some hring hrect (mem_rects.2.1 hk) he
    have hchain : execTimes .fill (n + 1) (filling s c 0) =
        .next (({ s with sst := { s.sst with cells := filled s c (n + 1) } } : State).post c .done (n + 1) .none) := by
      refine execTimes_chain n (filling s c) _ (fun e he => ?_) ?_
      · obtain ⟨a, ha⟩ := hstep e (by omega)
        have hmore : ({ Running.start c with progress := e + 1 } : Running).doneAnswer .none = none :=
          doneAnswer_more (show e + 1 < c.w * c.h by omega)
        rw [exec_filling hk hp ha, hmore]
        rfl
      · obtain ⟨a, ha⟩ := hstep n (by omega)
        have hlast : ({ Running.start c with progress := n + 1 } : Running).doneAnswer .none = some (.done, .none) :=
          doneAnswer_last (show c.w * c.h ≤ n + 1 by omega)
        rw [exec_filling hk hp ha, hlast]
        rfl
    have hstart : filling s c 0 = s := by
      rw [filling, filled]
      show ({ s with ble := .run (Running.start c) } : State) = s
      rw [← hb]
    rw [hstart] at hchain
    rw [hn]
    refine ⟨_, hchain, State.post_answeredFrom hpend rfl rfl, rfl, fun k hk => read_filled hsheet c _ hk,
      fun k hk => read_filled_other hsheet c _ hk, ?_⟩
    exact keptBut_of fun b => by cases b <;> simp [Block.same]

/-! ### SRCH -/

/-- The state of a search before element `e`, with this previous value. -/
def searching (s : State) (c : Staged) (prev : Nat → Option Nat) (e : Nat) : State :=
  { s with ble := .run { Running.start c with progress := e, prev := prev e } }

/-- Settles O44: the elements before the match leave the search running. -/
theorem searchFindsTheFirst : Obligations.SearchFindsTheFirst := by
  intro cond s c k word hb hk hc hrect hrecs hring hp hpend hkh hword prev hbefore hmatch
  have hw : c.w = 1 := by
    simp only [Staged.rectOk, hk, Bool.and_eq_true] at hrect
    simpa using hrect.1.2
  have hnext : ∀ e, prev (e + 1) = nextPrev (prev e) (word e) := fun e => by
    show ((List.range (e + 1)).map word).foldl nextPrev none = _
    rw [List.range_succ, List.map_append, List.foldl_append]
    rfl
  have helement : ∀ e, e < c.h → exec (srchInstr cond) (searching s c prev e) =
      .next (s.endElement { Running.start c with progress := e + 1, prev := prev (e + 1) }
        (srchAnswer cond { Running.start c with progress := e, prev := prev e } (word e))) := fun e he => by
    obtain ⟨a, ha, hwa⟩ := hword e he
    have hserves : PortServes (searching s c prev e) { Running.start c with progress := e, prev := prev e } :=
      PortFree.serves (s := searching s c prev e) hp _
    rw [exec_srch (r := { Running.start c with progress := e, prev := prev e }) rfl hk hc hserves ha, hnext, hwa]
    rfl
  have hrow : c.rowOf k = if c.rowDesc then c.h - 1 - k else k := by
    rw [Staged.rowOf, hw, Nat.div_one]
  have hchain : execTimes (srchInstr cond) (k + 1) (searching s c prev 0) =
      .next (s.post c .found (k + 1) (.found k (c.source.line + if c.rowDesc then c.h - 1 - k else k) (word k))) := by
    refine execTimes_chain k (searching s c prev) _ (fun e he => ?_) ?_
    · have hnone : srchAnswer cond { Running.start c with progress := e, prev := prev e } (word e) = none :=
        srchAnswer_none (hbefore e he) (show e + 1 < c.h by omega)
      rw [helement e (by omega), hnone]
      rfl
    · have hfound : srchAnswer cond { Running.start c with progress := k, prev := prev k } (word k) =
          some (.found, .found k (c.source.line + c.rowOf k) (word k)) := srchAnswer_found hmatch
      rw [helement k hkh, hfound, ← hrow]
      rfl
  have hstart : searching s c prev 0 = s := by
    show ({ s with ble := .run (Running.start c) } : State) = s
    rw [← hb]
  rw [hstart] at hchain
  refine ⟨_, hchain, State.post_answered hpend, ?_⟩
  exact keptBut_of fun b => by cases b <;> simp [Block.same]

/-! ### RDUC -/

/-- The statistics of the first elements. -/
def statsOf (word : Nat → Word) (row col : Nat → Nat) : Nat → Stats
  | 0 => Stats.none
  | e + 1 => (statsOf word row col e).take (word e) (row e) (col e)

/-- The elements with a valid word among the first. -/
def validBefore (word : Nat → Word) (n : Nat) : List Nat := (List.range n).filter fun e => !isVoid (word e)

/-- The first element with the code `best`, and its position. -/
def FirstAt (valid : List Nat) (code row col : Nat → Nat) (best r c : Nat) : Prop :=
  ∃ e ∈ valid, code e = best ∧ (∀ f ∈ valid, f < e → code f ≠ best) ∧ r = row e ∧ c = col e

theorem validBefore_lt {word : Nat → Word} {n e : Nat} (h : e ∈ validBefore word n) : e < n :=
  List.mem_range.mp (List.mem_of_mem_filter h)

theorem validBefore_succ (word : Nat → Word) (n : Nat) :
    validBefore word (n + 1) = validBefore word n ++ if isVoid (word n) then [] else [n] := by
  unfold validBefore
  rw [List.range_succ, List.filter_append]
  cases h : isVoid (word n) <;> simp [h]

/-- The first element stays the first when a later one is added. -/
theorem FirstAt.keep {valid : List Nat} {code row col : Nat → Nat} {best r c n : Nat}
    (h : FirstAt valid code row col best r c) (hn : ∀ e ∈ valid, e < n) : FirstAt (valid ++ [n]) code row col best r c := by
  obtain ⟨e, he, hcode, hfirst, hr, hc⟩ := h
  refine ⟨e, List.mem_append_left _ he, hcode, fun f hf hlt => ?_, hr, hc⟩
  rcases List.mem_append.mp hf with hf | hf
  · exact hfirst f hf hlt
  · have := hn e he
    rw [List.mem_singleton.mp hf] at hlt
    omega

/-- An element with a code that no earlier one has is the first of its code. -/
theorem firstAt_new {valid : List Nat} {code row col : Nat → Nat} {n : Nat} (h : ∀ f ∈ valid, code f ≠ code n) :
    FirstAt (valid ++ [n]) code row col (code n) (row n) (col n) := by
  refine ⟨n, List.mem_append_right _ (List.mem_singleton.mpr rfl), rfl, fun f hf hlt => ?_, rfl, rfl⟩
  rcases List.mem_append.mp hf with hf | hf
  · exact h f hf
  · rw [List.mem_singleton.mp hf] at hlt
    exact absurd hlt (lt_irrefl n)

/-- What the statistics say of the valid elements (R135, R136). -/
def StatsSay (st : Stats) (valid : List Nat) (code row col : Nat → Nat) : Prop :=
  st.vcount = valid.length ∧ st.sum = (valid.map code).sum ∧ (∀ e ∈ valid, st.min ≤ code e ∧ code e ≤ st.max) ∧
    (valid ≠ [] →
      FirstAt valid code row col st.min st.minRow st.minCol ∧ FirstAt valid code row col st.max st.maxRow st.maxCol)

/-- A valid word is taken. -/
theorem StatsSay.take {st : Stats} {valid : List Nat} {code row col : Nat → Nat} {n : Nat} {w : Word}
    (h : StatsSay st valid code row col) (hn : ∀ e ∈ valid, e < n) (hv : isVoid w = false) (hw : codeOf w = code n) :
    StatsSay (st.take w (row n) (col n)) (valid ++ [n]) code row col := by
  obtain ⟨hcount, hsum, hbounds, hfirst⟩ := h
  have hempty : st.vcount = 0 ↔ valid = [] := by rw [hcount, List.length_eq_zero_iff]
  simp only [Stats.take, hv, Bool.false_eq_true, if_false, hw]
  refine ⟨by simp [hcount], by simp [hsum], fun e he => ?_, fun _ => ⟨?_, ?_⟩⟩
  · rcases List.mem_append.mp he with he | he
    · have hne : ¬st.vcount = 0 := fun h0 => by rw [hempty.mp h0] at he; exact List.not_mem_nil he
      have := hbounds e he
      dsimp only
      constructor <;> split <;> omega
    · rw [List.mem_singleton.mp he]
      dsimp only
      constructor <;> split <;> omega
  · dsimp only
    split
    · next hless =>
      refine firstAt_new fun f hf => ?_
      have hne : ¬st.vcount = 0 := fun h0 => by rw [hempty.mp h0] at hf; exact List.not_mem_nil hf
      have := (hbounds f hf).1
      omega
    · next hmore => exact (hfirst fun h0 => hmore (.inl (hempty.mpr h0))).1.keep hn
  · dsimp only
    split
    · next hless =>
      refine firstAt_new fun f hf => ?_
      have hne : ¬st.vcount = 0 := fun h0 => by rw [hempty.mp h0] at hf; exact List.not_mem_nil hf
      have := (hbounds f hf).2
      omega
    · next hmore => exact (hfirst fun h0 => hmore (.inl (hempty.mpr h0))).2.keep hn

theorem statsOf_say (word : Nat → Word) (row col : Nat → Nat) :
    ∀ n, StatsSay (statsOf word row col n) (validBefore word n) (fun e => codeOf (word e)) row col
  | 0 => ⟨rfl, rfl, fun e he => absurd he List.not_mem_nil, fun h => absurd rfl h⟩
  | n + 1 => by
    have ih := statsOf_say word row col n
    rw [validBefore_succ, statsOf]
    cases hv : isVoid (word n) with
    | true =>
      have hsame : (statsOf word row col n).take (word n) (row n) (col n) = statsOf word row col n := by
        simp [Stats.take, hv]
      rw [hsame, if_pos rfl, List.append_nil]
      exact ih
    | false =>
      rw [if_neg (by simp)]
      exact ih.take (fun e he => validBefore_lt he) hv rfl

/-- The state of a reduction before element `e`. -/
def reducing (s : State) (c : Staged) (stats : Nat → Stats) (e : Nat) : State :=
  { s with ble := .run { Running.start c with progress := e, stats := stats e } }

/-- Settles O46: the chain of all elements, and what their statistics say. -/
theorem reduceGivesStatistics : Obligations.ReduceGivesStatistics := by
  intro s c word hb hk hrect hrecs hring hp hpend hword valid
  obtain ⟨n, hn⟩ := total_eq_succ hrect
  let stats := statsOf word (fun e => c.source.line + c.rowOf e) fun e => c.source.col + c.colOf e
  have helement : ∀ e, e < c.w * c.h → exec .rduc (reducing s c stats e) =
      .next (s.endElement { Running.start c with progress := e + 1, stats := stats (e + 1) }
        (({ Running.start c with progress := e + 1, stats := stats (e + 1) } : Running).doneAnswer
          (.reduced (stats (e + 1))))) := fun e he => by
    obtain ⟨a, ha, hwa⟩ := hword e he
    have hserves : PortServes (reducing s c stats e) { Running.start c with progress := e, stats := stats e } :=
      PortFree.serves (s := reducing s c stats e) hp _
    have htake : stats (e + 1) =
        (stats e).take (s.wordAt a) (c.source.line + c.rowOf e) (c.source.col + c.colOf e) := by rw [← hwa]; rfl
    rw [exec_rduc (r := { Running.start c with progress := e, stats := stats e }) rfl hk hserves ha, htake]
    rfl
  have hchain : execTimes .rduc (n + 1) (reducing s c stats 0) =
      .next (s.post c .done (n + 1) (.reduced (stats (n + 1)))) := by
    refine execTimes_chain n (reducing s c stats) _ (fun e he => ?_) ?_
    · have hmore : ({ Running.start c with progress := e + 1, stats := stats (e + 1) } : Running).doneAnswer
          (.reduced (stats (e + 1))) = none := doneAnswer_more (show e + 1 < c.w * c.h by omega)
      rw [helement e (by omega), hmore]
      rfl
    · have hlast : ({ Running.start c with progress := n + 1, stats := stats (n + 1) } : Running).doneAnswer
          (.reduced (stats (n + 1))) = some (.done, .reduced (stats (n + 1))) :=
        doneAnswer_last (show c.w * c.h ≤ n + 1 by omega)
      rw [helement n (by omega), hlast]
      rfl
  have hstart : reducing s c stats 0 = s := by
    show ({ s with ble := .run (Running.start c) } : State) = s
    rw [← hb]
  rw [hstart] at hchain
  have hsay := statsOf_say word (fun e => c.source.line + c.rowOf e) (fun e => c.source.col + c.colOf e) (n + 1)
  rw [← hn] at hchain hsay
  obtain ⟨hcount, hsum, hbounds, hfirst⟩ := hsay
  refine ⟨_, stats (c.w * c.h), hchain, State.post_answered hpend, hcount, hsum, hbounds, hfirst, ?_⟩
  exact keptBut_of fun b => by cases b <;> simp [Block.same]

end Sys2Proof.Machine.Steps
end

section
/-! SUPPORT. Transfers: one element of XRD and XWR at the store port, the reads and writes of XDATA, and the expiry of the
transfer timeout. -/

namespace Sys2Proof.Machine.Steps

variable {s t u : State}

/-! ## The ends of a transfer -/

/-- A command answered with XF emptied, from a state whose results, records and last returned word are as before. -/
theorem answered_emptied {c : Staged} {st : Status} {progress : Nat} {d : Detail} (hp : .pending ∈ s.rq)
    (hq : u.rq = s.rq) (ht : u.rtb = s.rtb) :
    Answered s (u.post c st progress d).emptyXf c st progress d ∧
      (u.post c st progress d).emptyXf.xf = ⟨[], u.xf.last, none⟩ := by
  have h : Answered s (u.post c st progress d) c st progress d := State.post_answeredFrom hp hq ht
  rw [Answered, PinsReleased] at h ⊢
  simpa using h

theorem afterRead_aborting {r : Running} {words : List Word} (h : r.aborting = true) :
    afterRead s r words = (s.post r.cmd .aborted r.progress .none).emptyXf := if_pos h

theorem afterRead_waits {r : Running} {words : List Word} (h : ¬r.aborting = true)
    (hw : 4 ≤ words.length ∨ r.cmd.w * r.cmd.h ≤ r.fetched) : afterRead s r words = s.toXwait r words :=
  (if_neg h).trans (if_pos hw)

theorem afterRead_runs {r : Running} {words : List Word} (h : ¬r.aborting = true)
    (hw : ¬(4 ≤ words.length ∨ r.cmd.w * r.cmd.h ≤ r.fetched)) : afterRead s r words = s.toRun r words :=
  (if_neg h).trans (if_neg hw)

theorem afterWrite_aborting {r : Running} {words : List Word} (h : r.aborting = true) :
    afterWrite s r words = (s.post r.cmd .aborted r.progress .none).emptyXf := if_pos h

theorem afterWrite_done {r : Running} {words : List Word} (h : ¬r.aborting = true)
    (hw : r.cmd.w * r.cmd.h ≤ r.progress) : afterWrite s r words = (s.post r.cmd .done r.progress .none).emptyXf :=
  (if_neg h).trans (if_pos hw)

theorem afterWrite_more {r : Running} {words : List Word} (h : ¬r.aborting = true)
    (hw : ¬r.cmd.w * r.cmd.h ≤ r.progress) :
    afterWrite s r words = if words = [] then s.toXwait r words else s.toRun r words :=
  (if_neg h).trans (if_neg hw)

theorem afterTake_done {r : Running} {words : List Word} (hw : r.cmd.w * r.cmd.h ≤ r.progress) :
    afterTake s r words = (s.post r.cmd .done r.progress .none).emptyXf := if_pos hw

theorem afterTake_more {r : Running} {words : List Word} (hw : ¬r.cmd.w * r.cmd.h ≤ r.progress) :
    afterTake s r words =
      if words.length < 4 ∧ r.fetched < r.cmd.w * r.cmd.h then s.toRun r words else s.toXwait r words :=
  if_neg hw

/-! ## One element at the port (R145, R146) -/

/-- A source read of XRD that the port serves. -/
theorem exec_xrd {r : Running} {a : Nat} (hb : s.ble = .run r) (hk : r.cmd.kind = some .xrd) (hp : PortServes s r)
    (hroom : s.xf.words.length < 4) (hmore : r.fetched < r.cmd.w * r.cmd.h)
    (ha : r.cmd.elementAddr r.cmd.source s.acq.cfg s.rtb r.fetched = some a) :
    exec .xrd s =
      .next (afterRead s { r with fetched := r.fetched + 1, busy := false } (s.xf.words ++ [s.wordAt a])) := by
  refine (State.onElement_served hb (by simp [Staged.isKind, hk]) hp).trans ?_
  rw [xrdElement, if_pos ⟨hroom, hmore⟩, ha]

/-- A destination write of XWR that the port serves. -/
theorem exec_xwr {r : Running} {b : Nat} {w : Word} {rest : List Word} (hb : s.ble = .run r)
    (hk : r.cmd.kind = some .xwr) (hp : PortServes s r) (hw : s.xf.words = w :: rest)
    (ha : r.cmd.elementAddr r.cmd.dest s.acq.cfg s.rtb r.progress = some b) :
    exec .xwr s = .next (afterWrite (s.store b w) r.complete rest) := by
  refine (State.onElement_served hb (by simp [Staged.isKind, hk]) hp).trans ?_
  rw [xwrElement, hw]
  simp only [ha]

theorem afterRead_keptBut (r : Running) (words : List Word) : KeptBut [.ble, .xf, .rq, .rtb] s (afterRead s r words) := by
  unfold afterRead
  split_ifs <;> exact keptBut_of fun b => by cases b <;> simp [Block.same]

theorem afterWrite_keptBut (r : Running) (words : List Word) :
    KeptBut [.ble, .xf, .rq, .rtb] s (afterWrite s r words) := by
  unfold afterWrite
  split_ifs <;> exact keptBut_of fun b => by cases b <;> simp [Block.same]

theorem afterTake_keptBut (r : Running) (words : List Word) : KeptBut [.ble, .xf, .rq, .rtb] s (afterTake s r words) := by
  unfold afterTake
  split_ifs <;> exact keptBut_of fun b => by cases b <;> simp [Block.same]

/-- Settles O47: what follows a source read, and what follows a destination write. -/
theorem transferElement : Obligations.TransferElement := by
  intro s r hb hp hpend
  refine ⟨fun a hk hroom hmore ha => ⟨_, exec_xrd hb hk hp hroom hmore ha, afterRead_keptBut _ _, ?_⟩,
    fun b w rest hk hsheet hw ha => ⟨_, exec_xwr hb hk hp hw ha, ?_, ?_, ?_⟩⟩
  · intro r'
    by_cases habort : r.aborting = true
    · rw [afterRead_aborting (r := r') habort, if_pos habort]
      exact answered_emptied hpend rfl rfl
    · have hwaits : (4 ≤ (s.xf.words ++ [s.wordAt a]).length ∨ r.cmd.w * r.cmd.h ≤ r.fetched + 1) ↔
          (s.xf.words.length = 3 ∨ r.fetched + 1 = r.cmd.w * r.cmd.h) := by
        rw [List.length_append, List.length_singleton]
        omega
      rw [if_neg habort]
      by_cases hw : s.xf.words.length = 3 ∨ r.fetched + 1 = r.cmd.w * r.cmd.h
      · rw [afterRead_waits (r := r') habort (hwaits.mpr hw), if_pos hw]
        exact ⟨rfl, rfl, rfl, rfl⟩
      · rw [afterRead_runs (r := r') habort fun h => hw (hwaits.mp h), if_neg hw]
        exact ⟨rfl, rfl, rfl, rfl⟩
  · have hsst : (afterWrite (s.store b w) r.complete rest).sst = (s.store b w).sst :=
      afterWrite_keptBut r.complete rest .sst (by simp)
    rw [Stored, hsst]
    exact State.store_stored hsheet w
  · exact ((store_keptBut s b w).mono (by simp)).trans ((afterWrite_keptBut r.complete rest).mono (by simp))
  · intro r'
    by_cases habort : r.aborting = true
    · rw [afterWrite_aborting (r := r.complete) habort, if_pos habort]
      exact answered_emptied hpend rfl rfl
    · rw [if_neg habort]
      by_cases hdone : r.cmd.w * r.cmd.h ≤ r.progress + 1
      · rw [afterWrite_done (r := r.complete) habort hdone, if_pos hdone]
        exact answered_emptied hpend rfl rfl
      · rw [afterWrite_more (r := r.complete) habort hdone, if_neg hdone]
        by_cases hrest : rest = []
        · subst hrest
          exact ⟨rfl, rfl, fun _ => ⟨rfl, rfl⟩, fun h => absurd rfl h⟩
        · rw [if_neg hrest]
          exact ⟨rfl, rfl, fun h => absurd h hrest, fun _ => ⟨rfl, rfl⟩⟩

/-! ## The transfer data word (R148, R149) -/

theorem running_of {r : Running} (hb : s.ble = .run r ∨ s.ble = .xwait r) : s.ble.running = some r := by
  rcases hb with hb | hb <;> rw [hb] <;> rfl

theorem exec_xdataRead (hh : s.held = false) : exec .xdataRead s = .next (readXdata s) := by
  show execXdataRead s = _
  simp [execXdataRead, hh]

theorem exec_xdataWrite {w : Word} (hh : s.held = false) : exec (.xdataWrite w) s = .next (writeXdata w s) :=
  State.unlessHeld_of hh

/-- A read with a word of an XRD in XF. -/
theorem readXdata_takes {r : Running} {w : Word} {rest : List Word} (hr : s.ble.running = some r)
    (hk : r.cmd.kind = some .xrd) (hw : s.xf.words = w :: rest) : readXdata s = takeWord s r w rest := by
  rw [readXdata, hr]
  simp only [hk, if_true, hw]

/-- A read of an XRD with XF empty. -/
theorem readXdata_underrun {r : Running} (hr : s.ble.running = some r) (hk : r.cmd.kind = some .xrd)
    (hw : s.xf.words = []) : readXdata s = underrunRead s := by
  rw [readXdata, hr]
  simp only [hk, if_true, hw]

/-- A read with no XRD running. -/
theorem readXdata_void (h : ∀ r, s.ble.running = some r → r.cmd.kind ≠ some .xrd) : readXdata s = voidRead s := by
  unfold readXdata
  split
  · next r hr => rw [if_neg (h r hr)]
  · rfl

/-- Outside XWAIT an access leaves the timeout. -/
theorem touch_of (h : ∀ r, s.ble ≠ .xwait r) : s.touch = s := by
  unfold State.touch
  split
  · next r hr => exact absurd hr (h r)
  · rfl

/-- In XWAIT an access starts the timeout again. -/
theorem touch_xwait {r : Running} (h : s.ble = .xwait r) :
    s.touch = { s with xf := { s.xf with timeout := s.timeoutStart } } := by
  rw [State.touch, h]

/-- Settles O48: the four cases of a read. -/
theorem xdataRead : Obligations.XdataRead := by
  intro s hh
  have hexec := exec_xdataRead hh
  refine ⟨fun r w rest hb hk hw hpend => ?_, fun r hb hk hw => ?_, fun h => ?_, fun r hb hk => ?_⟩
  · rw [readXdata_takes (running_of hb) hk hw, takeWord] at hexec
    have hframe : KeptBut [.ble, .xf, .rq, .rtb, .bus] s
        ((afterTake { s with xf := { s.xf with last := w } } { r with progress := r.progress + 1 } rest).give w) := by
      have h1 : KeptBut [.xf] s { s with xf := { s.xf with last := w } } :=
        keptBut_of fun b => by cases b <;> simp [Block.same]
      have h2 : ∀ u : State, KeptBut [.bus] u (u.give w) := fun u => keptBut_of fun b => by cases b <;> simp [Block.same]
      exact ((h1.mono (by simp)).trans ((afterTake_keptBut _ _).mono (by simp))).trans ((h2 _).mono (by simp))
    refine ⟨_, hexec, rfl, hframe, ?_⟩
    intro r'
    by_cases hdone : r.cmd.w * r.cmd.h ≤ r.progress + 1
    · rw [afterTake_done (r := r') hdone, if_pos hdone]
      exact answered_emptied (u := { s with xf := { s.xf with last := w } }) hpend rfl rfl
    · rw [afterTake_more (r := r') hdone, if_neg hdone]
      by_cases hmore : rest.length < 4 ∧ r.fetched < r.cmd.w * r.cmd.h
      · have hrun : rest.length < 4 ∧ r'.fetched < r'.cmd.w * r'.cmd.h := hmore
        rw [if_pos hrun, if_pos hmore]
        exact ⟨rfl, rfl, rfl, rfl⟩
      · have hwait : ¬(rest.length < 4 ∧ r'.fetched < r'.cmd.w * r'.cmd.h) := hmore
        rw [if_neg hwait, if_neg hmore]
        exact ⟨rfl, rfl, rfl, rfl⟩
  · rw [readXdata_underrun (running_of (.inl hb)) hk hw, underrunRead, touch_of (by simp [hb])] at hexec
    exact ⟨_, hexec, rfl, rfl, keptBut_of fun b => by cases b <;> simp [Block.same]⟩
  · have hvoid : readXdata s = voidRead s := readXdata_void fun r hr => by
      rcases h with hb | ⟨r', hb, hk⟩
      · simp [hb, Engine.running] at hr
      · rw [running_of (.inl hb)] at hr
        exact Option.some.inj hr ▸ hk
    have hrun : ∀ r, s.ble ≠ .xwait r := fun r hr => by
      rcases h with hb | ⟨r', hb, -⟩ <;> simp [hb] at hr
    rw [hvoid, voidRead, touch_of (by simpa using hrun)] at hexec
    exact ⟨_, hexec, rfl, rfl, rfl, keptBut_of fun b => by cases b <;> simp [Block.same]⟩
  · have hvoid : readXdata s = voidRead s := readXdata_void fun r' hr => by
      rw [running_of (.inr hb)] at hr
      rw [← Option.some.inj hr, hk]
      simp
    rw [hvoid, voidRead, touch_xwait (r := r) (by simp [hb])] at hexec
    exact ⟨_, hexec, rfl, rfl, rfl, keptBut_of fun b => by cases b <;> simp [Block.same]⟩

/-- A write that an XWR takes. -/
theorem writeXdata_takes {r : Running} {w : Word} (hr : s.ble.running = some r) (hk : r.cmd.kind = some .xwr)
    (hroom : s.xf.words.length < min 4 (r.cmd.w * r.cmd.h - r.progress)) :
    writeXdata w s = s.toRun r (s.xf.words ++ [w]) := by
  rw [writeXdata, hr]
  exact if_pos ⟨hk, hroom⟩

/-- A write that is dropped. -/
theorem writeXdata_drops {w : Word}
    (h : ∀ r, s.ble.running = some r →
      ¬(r.cmd.kind = some .xwr ∧ s.xf.words.length < min 4 (r.cmd.w * r.cmd.h - r.progress))) :
    writeXdata w s = dropWrite s := by
  unfold writeXdata
  split
  · next r hr => exact if_neg (h r hr)
  · rfl

/-- Settles O49: taken, dropped in IDLE and RUN, dropped in XWAIT. -/
theorem xdataWrite : Obligations.XdataWrite := by
  intro w s hh
  have hexec := exec_xdataWrite (w := w) hh
  refine ⟨fun r hb hk hroom => ?_, fun h => ?_, fun r hb hk => ?_⟩
  · rw [writeXdata_takes (running_of hb) hk hroom] at hexec
    exact ⟨_, hexec, rfl, rfl, keptBut_of fun b => by cases b <;> simp [Block.same]⟩
  · have hdrop : writeXdata w s = dropWrite s := writeXdata_drops fun r hr htakes => by
      rcases h with hb | ⟨r', hb, hno⟩
      · simp [hb, Engine.running] at hr
      · rw [running_of (.inl hb)] at hr
        obtain rfl := Option.some.inj hr
        rcases hno with hno | hno
        · exact hno htakes.1
        · exact absurd htakes.2 (Nat.not_lt.mpr hno)
    have hrun : ∀ r, s.ble ≠ .xwait r := fun r hr => by
      rcases h with hb | ⟨r', hb, -⟩ <;> simp [hb] at hr
    rw [hdrop, dropWrite, touch_of (by simpa using hrun)] at hexec
    exact ⟨_, hexec, rfl, keptBut_of fun b => by cases b <;> simp [Block.same]⟩
  · have hdrop : writeXdata w s = dropWrite s := writeXdata_drops fun r' hr htakes => by
      rw [running_of (.inr hb)] at hr
      rw [← Option.some.inj hr, hk] at htakes
      simp at htakes
    rw [hdrop, dropWrite, touch_xwait (r := r) (by simp [hb])] at hexec
    exact ⟨_, hexec, rfl, rfl, keptBut_of fun b => by cases b <;> simp [Block.same]⟩

/-! ## The transfer timeout (R153) -/

/-- A timeout that runs out in XWAIT. -/
theorem exec_transferTimeout {r : Running} {k : Nat} (hh : s.held = false) (hb : s.ble = .xwait r)
    (hk : s.xf.timeout = some k) :
    exec .transferTimeout s = .next (s.post r.cmd .timeout r.progress .none).emptyXf := by
  show execTransferTimeout s = _
  rw [execTransferTimeout, State.unlessHeld_of hh, hb, hk]

/-- A timeout that does not run does not run out. -/
theorem exec_transferTimeout_stopped (hh : s.held = false) (hk : s.xf.timeout = none) :
    exec .transferTimeout s = .next s := by
  show execTransferTimeout s = _
  rw [execTransferTimeout, State.unlessHeld_of hh, hk]
  cases s.ble <;> rfl

/-- Settles O50: the answer TIMEOUT, or nothing. -/
theorem transferTimeout : Obligations.TransferTimeout := by
  intro s hh
  refine ⟨fun r k hb hk hpend => ?_, exec_transferTimeout_stopped hh⟩
  obtain ⟨hanswered, hemptied⟩ := answered_emptied (c := r.cmd) (st := .timeout) (progress := r.progress)
    (d := .none) hpend (u := s) rfl rfl
  exact ⟨_, exec_transferTimeout hh hb hk, hanswered, hemptied,
    keptBut_of fun b => by cases b <;> simp [Block.same]⟩

end Sys2Proof.Machine.Steps
end

section
/-! SUPPORT. Coordinates: element order, the sheet words of positions, the overlap with the ring; and the order of the
store port's two users. -/

namespace Sys2Proof.Machine.Steps

variable {s t u : State}

/-! ## Element order (R6) -/

/-- A step along an order is a position exactly when the position's own step is that step. -/
theorem flipped_eq_iff {n i d : Nat} {desc : Bool} (hi : i < n) (hd : d < n) :
    (if desc then n - 1 - d else d) = i ↔ d = if desc then n - 1 - i else i := by
  cases desc
  · simp
  · simp only [if_true]
    omega

/-- Settles O57: a position's steps are the quotient and the remainder of one element number. -/
theorem elementOrder : Obligations.ElementOrder := by
  intro c hw hh
  refine ⟨fun k hk => ⟨rfl, rfl, rowOf_lt hk, colOf_lt hk⟩, fun i j hi hj => ?_⟩
  have hrow : ∀ k, k < c.w * c.h → (c.rowOf k = i ↔ k / c.w = if c.rowDesc then c.h - 1 - i else i) := fun k hk =>
    flipped_eq_iff hi (Nat.div_lt_of_lt_mul hk)
  have hcol : ∀ k, c.colOf k = j ↔ k % c.w = if c.colDesc then c.w - 1 - j else j := fun k =>
    flipped_eq_iff hj (Nat.mod_lt k hw)
  have hi' : (if c.rowDesc then c.h - 1 - i else i) < c.h := by split <;> omega
  have hj' : (if c.colDesc then c.w - 1 - j else j) < c.w := by split <;> omega
  generalize (if c.rowDesc then c.h - 1 - i else i) = row at hrow hi'
  generalize (if c.colDesc then c.w - 1 - j else j) = col at hcol hj'
  have hunique : ∀ k, (k / c.w = row ∧ k % c.w = col) ↔ col + c.w * row = k ∧ col < c.w := fun k =>
    Nat.div_mod_unique hw
  have hlt : col + c.w * row < c.w * c.h := by
    calc col + c.w * row < c.w + c.w * row := Nat.add_lt_add_right hj' _
      _ = c.w * (row + 1) := by ring
      _ ≤ c.w * c.h := Nat.mul_le_mul_left _ hi'
  obtain ⟨hdiv, hmod⟩ := (hunique (col + c.w * row)).mpr ⟨rfl, hj'⟩
  refine ⟨col + c.w * row, ⟨hlt, (hrow _ hlt).mpr hdiv, (hcol _).mpr hmod⟩, ?_⟩
  rintro k ⟨hk, hkrow, hkcol⟩
  exact ((hunique k).mp ⟨(hrow k hk).mp hkrow, (hcol k).mp hkcol⟩).1.symm

/-! ## Positions as words of the sheet (R5, R9) -/

/-- A row of a record's offset within its length lies in the record's arc. -/
theorem holds_mapOffset {cfg : AcqTable} {d : Descriptor} {o : Nat} (hd : RingRow cfg d.start) (ho : o < d.length)
    (hl : d.length ≤ cfg.ringLength) : d.holds cfg (mapOffset cfg d o) = true := by
  have hrow := mapOffset_mem (cfg := cfg) (by obtain ⟨h1, h2⟩ := hd; omega) d o
  rw [holds_iff hd hrow, mapOffset_eq hd (by omega)]
  obtain ⟨h1, h2⟩ := hd
  split <;> split <;> omega

/-- Settles O58: the absolute and the record-relative form. -/
theorem positionsMapToTheSheet : Obligations.PositionsMapToTheSheet := by
  intro s q i j hring hshapes hcol
  obtain ⟨h16, -, hbase, -, -⟩ := hring
  refine ⟨fun hrel hrow => ?_, fun hrel hsealed hoff => ?_⟩
  · rw [Coord.addr, hrel]
    exact sheetAddr_eq_some.mpr ⟨hrow, hcol, rfl⟩
  · obtain ⟨hstart, hend, hlength, -, -⟩ := hshapes.1 q.record (ne_of_eq_of_ne hsealed (by decide))
    obtain ⟨hlo, hhi⟩ := mapOffset_mem (cfg := s.acq.cfg) (by omega) s.rtb.recs[q.record] (q.line + i)
    refine ⟨mapOffset s.acq.cfg s.rtb.recs[q.record] (q.line + i), ?_, hlo, hhi, ?_,
      holds_mapOffset ⟨hstart, hend⟩ hoff hlength⟩
    · rw [Coord.addr, hrel]
      exact sheetAddr_eq_some.mpr ⟨by rw [if_pos rfl]; omega, hcol, rfl⟩
    · rw [mapOffset]
      push_cast [Nat.cast_sub hstart]
      ring

/-! ## The overlap with the ring (R10) -/

/-- An absolute rectangle of some height overlaps the ring exactly when one of its rows is a ring row. -/
theorem overlapsRing_iff {q : Coord} {cfg : AcqTable} {height : Nat} (hl : 0 < cfg.ringLength) :
    q.overlapsRing cfg height = true ↔
      q.relative = false ∧
        ∃ i, i < height ∧ cfg.ringBase ≤ q.line + i ∧ q.line + i < cfg.ringBase + cfg.ringLength := by
  simp only [Coord.overlapsRing, Bool.and_eq_true, Bool.not_eq_true', decide_eq_true_eq]
  refine and_congr_right fun _ => ⟨fun ⟨hpos, hbelow, habove⟩ => ?_, fun ⟨i, hi, hlo, hhi⟩ => ?_⟩
  · exact ⟨cfg.ringBase - q.line, by omega, by omega, by omega⟩
  · omega

/-- Settles O59: the rectangles of a kind are those that R91 names. -/
theorem ringOverlap : Obligations.RingOverlap := by
  intro c cfg _ hl
  rw [Staged.overlapsRing, List.any_eq_true, c.kind_spec.1]
  simp only [overlapsRing_iff (show 0 < cfg.ringLength by omega)]

/-! ## The store port (R11, R12, R43) -/

/-- What one element does, by the kind of its command. -/
inductive ElementFn : (Running → State → Out) → Prop
  | move (op : MoveOp) : ElementFn (moveElement op)
  | fill : ElementFn fillElement
  | srch (cond : Cond) : ElementFn (srchElement cond)
  | rduc : ElementFn rducElement
  | xrd : ElementFn xrdElement
  | xwr : ElementFn xwrElement

/-- An element command is an element that the port serves or that does not occur. -/
theorem exec_element {c : Instr} (h : isElement c = true) :
    ∃ sel f, ElementFn f ∧ ∀ s, exec c s = s.onElement sel f := by
  cases c with
  | moveCopy => exact ⟨_, _, .move .copy, fun _ => rfl⟩
  | moveAdds => exact ⟨_, _, .move .adds, fun _ => rfl⟩
  | moveSubs => exact ⟨_, _, .move .subs, fun _ => rfl⟩
  | moveMin => exact ⟨_, _, .move .min, fun _ => rfl⟩
  | moveMax => exact ⟨_, _, .move .max, fun _ => rfl⟩
  | moveMean => exact ⟨_, _, .move .mean, fun _ => rfl⟩
  | fill => exact ⟨_, _, .fill, fun _ => rfl⟩
  | srchAbove => exact ⟨_, _, .srch .above, fun _ => rfl⟩
  | srchBelow => exact ⟨_, _, .srch .below, fun _ => rfl⟩
  | srchRise => exact ⟨_, _, .srch .rise, fun _ => rfl⟩
  | srchFall => exact ⟨_, _, .srch .fall, fun _ => rfl⟩
  | srchFlagged => exact ⟨_, _, .srch .flagged, fun _ => rfl⟩
  | srchMarked => exact ⟨_, _, .srch .marked, fun _ => rfl⟩
  | srchVoided => exact ⟨_, _, .srch .voided, fun _ => rfl⟩
  | rduc => exact ⟨_, _, .rduc, fun _ => rfl⟩
  | xrd => exact ⟨_, _, .xrd, fun _ => rfl⟩
  | xwr => exact ⟨_, _, .xwr, fun _ => rfl⟩
  | _ => cases h

/-- No access of the engine is in service, and the converter is as before. -/
def AccessOver (s t : State) : Prop := t.cnv = s.cnv ∧ ∀ r, t.ble = .run r → r.busy = false

/-- The command that goes on has no access in service. -/
theorem EngineGoes.over {r : Running} (h : EngineGoes u r t) (hu : u.cnv = s.cnv) (hr : r.busy = false) :
    AccessOver s t := by
  cases h with
  | on e x he =>
    refine ⟨hu, fun r' hr' => ?_⟩
    obtain rfl : e = .run r' := hr'
    exact Option.some.inj he ▸ hr
  | answered st p d x => exact ⟨hu, fun r' hr' => by cases hr'⟩

/-- A MOVE that reads and then writes: its access is over, a second one waiting for the commit. -/
theorem moveElement_over {op : MoveOp} {r : Running} {row : List Word} (hrow : s.cnv.scan = .presented row)
    (h : moveElement op r s = .next t) : AccessOver s t := by
  have hwait : ∀ {r' : Running} {next : Running → State → Out}, s.between r' next = .next t → AccessOver s t := by
    intro r' next hb
    rw [State.between_waits hrow] at hb
    cases hb
    exact ⟨rfl, fun r'' hr'' => by cases hr''; rfl⟩
  have hwrite : ∀ {a b : Word}, moveWrite op a b r s = .next t → AccessOver s t := by
    intro a b hw
    unfold moveWrite at hw
    split at hw
    · cases hw
    · cases hw
      exact (endElement_goes _ _ _).over rfl rfl
  have hrest : ∀ {a : Word}, moveRest op a r s = .next t → AccessOver s t := by
    intro a hm
    unfold moveRest at hm
    split at hm
    · exact hwrite hm
    · split at hm
      · cases hm
      · exact hwait hm
  unfold moveElement at h
  split at h
  · split at h
    · cases h
    · split at h
      · cases h
        exact (endElement_goes _ _ _).over rfl rfl
      · exact hwait h
  · exact hrest h
  · exact hwrite h

/-- An element that the port has served has no access in service any more. -/
theorem ElementFn.over {f : Running → State → Out} {r : Running} {row : List Word} (hf : ElementFn f)
    (hrow : s.cnv.scan = .presented row) (h : f r s = .next t) : t = s ∨ AccessOver s t := by
  cases hf with
  | move op => exact .inr (moveElement_over hrow h)
  | fill =>
    unfold fillElement at h
    split at h <;> cases h
    exact .inr ((endElement_goes _ _ _).over rfl rfl)
  | srch cond =>
    unfold srchElement at h
    split at h <;> cases h
    exact .inr ((endElement_goes _ _ _).over rfl rfl)
  | rduc =>
    unfold rducElement at h
    split at h <;> cases h
    exact .inr ((endElement_goes _ _ _).over rfl rfl)
  | xrd =>
    unfold xrdElement at h
    split at h
    · split at h <;> cases h
      exact .inr ((afterRead_goes _ _ _).over rfl rfl)
    · cases h
      exact .inl rfl
  | xwr =>
    unfold xwrElement at h
    split at h
    · cases h
      exact .inl rfl
    · split at h <;> cases h
      exact .inr ((afterWrite_goes _ _ _).over rfl rfl)

theorem elementStep_isElement {c : Staged} {i : Instr} (h : i ∈ c.elementStep) : isElement i = true := by
  unfold Staged.elementStep at h
  split at h <;> simp only [List.mem_singleton, List.not_mem_nil] at h <;> rw [h] <;> rfl

theorem busyStep_isElement {e : Engine} {i : Instr} (h : i ∈ e.busyStep) : isElement i = true := by
  unfold Engine.busyStep at h
  split at h
  · split at h
    · exact elementStep_isElement h
    · cases h
  · cases h

/-- A row commit behind an access in service does not occur (R12). -/
theorem exec_rowCommit_busy {r : Running} (hh : s.held = false) (hb : s.ble = .run r) (hr : r.busy = true) :
    exec .rowCommit s = .next s := by
  show execRowCommit s = _
  rw [execRowCommit, State.unlessHeld_of hh]
  split
  · exact if_neg (by simp [hb, Engine.busy, hr])
  · rfl

/-- Settles O60: no element before the commit, the commit behind an access, and the order of a free block. -/
theorem commitServedFirst : Obligations.CommitServedFirst := by
  intro s row hh hrow
  refine ⟨fun hfree c hc => ?_, fun r hb hr => exec_rowCommit_busy hh hb hr, fun c t hc ht => ?_, fun hp hsw => ?_⟩
  · obtain ⟨sel, f, -, hexec⟩ := exec_element hc
    rw [hexec]
    refine (State.onElement_cases s sel f).resolve_right ?_
    rintro ⟨r, hb, -, ⟨-, -, hserves⟩, -⟩
    rcases hserves with hbusy | hnone
    · rw [hfree r hb] at hbusy
      cases hbusy
    · exact hnone row hrow
  · obtain ⟨sel, f, hf, hexec⟩ := exec_element hc
    rw [hexec] at ht
    rcases State.onElement_cases s sel f with h | ⟨r, -, -, -, h⟩
    · rw [h] at ht
      cases ht
      exact ⟨rfl, .inl rfl⟩
    · rw [h] at ht
      rcases hf.over hrow ht with rfl | ⟨hcnv, hidle⟩
      · exact ⟨rfl, .inl rfl⟩
      · exact ⟨hcnv, .inr hidle⟩
  · have hdue : s.dueNow = s.ble.busyStep ++ [.rowCommit] := by
      simp [State.dueNow, hsw, State.commitWaits_of hrow]
    refine ⟨s.ble.busyStep, ?_, fun c hc => busyStep_isElement hc, fun hfree => ?_⟩
    · rw [step_nil hp, idle, hh, hdue]
      simp
    · unfold Engine.busyStep
      split
      · next r hb => simp [hfree r hb]
      · rfl

end Sys2Proof.Machine.Steps
end

section
/-! SUPPORT. The block left to itself: what one part-clock period does in the sweep, the converter, the timer, the transfer
timeout and the engine, and which events fall due in it (log 3). -/

namespace Sys2Proof.Machine.Steps

variable {s t u : State}

/-! ## The step on an empty queue -/

theorem step_idle_held (hp : s.pending = []) (hh : s.held = true) : step s = .next s := by
  rw [step_nil hp, idle, if_pos hh]

theorem step_idle_due (hp : s.pending = []) (hh : s.held = false) (hd : s.dueNow ≠ []) :
    step s = .next { s with pending := s.dueNow } := by
  rw [step_nil hp, idle, if_neg (by simp [hh]), if_neg hd]

theorem step_idle_period (hp : s.pending = []) (hh : s.held = false) (hd : s.dueNow = []) :
    step s = .next (period s) := by
  rw [step_nil hp, idle, if_neg (by simp [hh]), if_pos hd]

/-- With nothing due after the sweep no commit waits. -/
theorem commitWaits_of_dueNow (hs : s.sweeping = false) (hd : s.dueNow = []) : s.commitWaits = false := by
  rw [State.dueNow, if_neg (by simp [hs])] at hd
  rw [← Bool.not_eq_true]
  intro hw
  rw [if_pos hw] at hd
  simp at hd

/-! ## The five parts of a period -/

theorem sweepPeriod_off (h : s.sweeping = false) : sweepPeriod s = (s.sst, []) := if_neg (by simp [h])

/-- The sweep short of its last word (R13). -/
theorem sweepPeriod_word (h : s.sweeping = true) (hpos : s.sst.sweepPos + 1 < 32768) :
    sweepPeriod s = (⟨Sheet.write s.sst.cells s.sst.sweepPos voidWord, s.sst.sweepPos + 1⟩, []) :=
  (if_pos h).trans (if_pos hpos)

/-- The sweep at its last word (R13). -/
theorem sweepPeriod_last (h : s.sweeping = true) (hpos : s.sst.sweepPos + 1 = 32768) :
    sweepPeriod s = (s.sst, [.initSweepEnd]) :=
  (if_pos h).trans (if_neg (by rw [hpos]; exact lt_irrefl _))

theorem timeoutPeriod_stopped (h : s.xf.timeout = none) : timeoutPeriod s = (none, []) := by
  rw [timeoutPeriod, h]

/-- A timeout short of its end (R151). -/
theorem timeoutPeriod_counts {k : Nat} (h : s.xf.timeout = some k) (hk : 1 < k) :
    timeoutPeriod s = (some (k - 1), []) := by
  rw [timeoutPeriod, h]
  exact if_neg (by omega)

/-- A timeout at its end (R153). -/
theorem timeoutPeriod_ends {k : Nat} (h : s.xf.timeout = some k) (hk : k ≤ 1) :
    timeoutPeriod s = (some k, [.transferTimeout]) := by
  rw [timeoutPeriod, h]
  exact if_pos hk

theorem timerPeriod_external (h : s.acq.cfg.timerMode = .external) : timerPeriod s = (s.stm, []) :=
  if_neg fun ⟨_, hm⟩ => hm h

/-- The prescaler short of a tick (R21). -/
theorem timerPeriod_prescales (hr : s.timerRunning = true) (hm : s.acq.cfg.timerMode ≠ .external)
    (hp : s.stm.prescale + 1 < s.acq.cfg.prescaler.num) :
    timerPeriod s = ({ s.stm with prescale := s.stm.prescale + 1 }, []) :=
  (if_pos ⟨hr, hm⟩).trans (if_pos hp)

/-- A tick that is lost, an expiry, or a tick that counts (R21, R22). -/
theorem timerPeriod_ticks (hr : s.timerRunning = true) (hm : s.acq.cfg.timerMode ≠ .external)
    (hp : ¬s.stm.prescale + 1 < s.acq.cfg.prescaler.num) :
    timerPeriod s =
      if s.ticksCount = true then
        if s.stm.counter ≤ 1 then ({ s.stm with prescale := 0 }, [.timerExpiry])
        else ({ s.stm with prescale := 0, counter := s.stm.counter - 1 }, [])
      else ({ s.stm with prescale := 0 }, []) := by
  refine ((if_pos ⟨hr, hm⟩).trans (if_neg hp)).trans ?_
  cases s.ticksCount <;> rfl

/-- With the timer running a tick counts in CONTINUOUS mode, and in GATED mode with the gate active (R22). -/
theorem ticksCount_iff (hr : s.timerRunning = true) :
    s.ticksCount = true ↔
      (s.acq.cfg.timerMode = .continuous ∨ (s.acq.cfg.timerMode = .gated ∧ s.gateActive = true)) := by
  rw [State.ticksCount, hr, Bool.true_and]
  cases s.acq.cfg.timerMode <;> simp

/-- The converter within a slot: time passes, a conversion ends, or the slot ends (R35 to R37). -/
theorem converterPeriod_converting {c : Converting} {i : Fin 16} (hc : s.cnv.scan = .converting c)
    (hi : c.buffer.length = i.val) :
    converterPeriod s =
      if c.clock + 1 < (s.cnv.slots[i].settle.toNat + 14 * (c.taken + 1)) * s.acq.cfg.divider.num then
        (.converting { c with clock := c.clock + 1 }, s.conversions, [])
      else if c.taken + 1 < s.cnv.slots[i].average.num then
        (.converting
          { c with
            clock := c.clock + 1
            taken := c.taken + 1
            sum := c.sum + s.cnv.slots[i].convert (Config.conversionCode s.conversions) },
          s.conversions + 1, [])
      else (s.cnv.scan, s.conversions + 1, [.slotEnd (Vector.replicate 8 (Config.conversionCode s.conversions))]) := by
  have hlt : c.buffer.length < 16 := hi ▸ i.isLt
  have hslot : s.cnv.slots[c.buffer.length] = s.cnv.slots[i] := by
    simp only [hi]
    rfl
  rw [converterPeriod, hc]
  simp only [hlt, dif_pos, hslot]
  rfl

/-- The engine begins to serve an access that waits, and one in service completes. -/
theorem enginePeriod_run {r : Running} (h : s.ble = .run r) (hs : s.sweeping = false) (hw : s.commitWaits = false) :
    (enginePeriod s).1 = .run { r with busy := true } := by
  rw [enginePeriod, h]
  cases hb : r.busy
  · simp [State.portServes, hs, hw, hb]
  · simp [← hb]

/-- In the sweep, and out of RUN, the engine stays. -/
theorem enginePeriod_stays (h : s.sweeping = true ∨ ∀ r, s.ble ≠ .run r) : (enginePeriod s).1 = s.ble := by
  unfold enginePeriod
  split
  · next r hr =>
    have hs : s.sweeping = true := h.resolve_right fun hno => hno r hr
    rw [hr]
    cases hb : r.busy <;> simp [State.portServes, hs, hb]
  · rfl

/-! ## The events that fall due -/

theorem mem_sweepPeriod {i : Instr} (h : i ∈ (sweepPeriod s).2) : i = .initSweepEnd := by
  unfold sweepPeriod at h
  split_ifs at h
  · cases h
  · exact List.mem_singleton.mp h
  · cases h

theorem mem_converterPeriod {i : Instr} (h : i ∈ (converterPeriod s).2.2) : ∃ codes, i = .slotEnd codes := by
  unfold converterPeriod at h
  split at h
  · split at h
    · dsimp only at h
      split_ifs at h <;> simp only [List.not_mem_nil, List.mem_singleton] at h
      exact ⟨_, h⟩
    · cases h
  · cases h

theorem mem_timerPeriod {i : Instr} (h : i ∈ (timerPeriod s).2) : i = .timerExpiry := by
  unfold timerPeriod at h
  split_ifs at h
  · cases h
  · cases h
  · exact List.mem_singleton.mp h
  · cases h
  · cases h

theorem mem_timeoutPeriod {i : Instr} (h : i ∈ (timeoutPeriod s).2) : i = .transferTimeout := by
  unfold timeoutPeriod at h
  split at h
  · split_ifs at h
    · exact List.mem_singleton.mp h
    · cases h
  · cases h

theorem mem_enginePeriod {i : Instr} (h : i ∈ (enginePeriod s).2) : isElement i = true := by
  unfold enginePeriod at h
  split at h
  · split_ifs at h
    · exact elementStep_isElement h
    · cases h
    · cases h
  · cases h

/-- What falls due in a period is of one of its five parts. -/
theorem mem_period {i : Instr} :
    i ∈ (period s).pending ↔
      i ∈ (sweepPeriod s).2 ∨ i ∈ (converterPeriod s).2.2 ∨ i ∈ (timerPeriod s).2 ∨ i ∈ (timeoutPeriod s).2 ∨
        i ∈ (enginePeriod s).2 := by
  simp only [period, List.mem_append, or_assoc]

theorem sweepEnd_due : .initSweepEnd ∈ (period s).pending ↔ .initSweepEnd ∈ (sweepPeriod s).2 := by
  refine mem_period.trans ⟨?_, .inl⟩
  rintro (h | h | h | h | h)
  · exact h
  · obtain ⟨codes, h⟩ := mem_converterPeriod h; cases h
  · cases mem_timerPeriod h
  · cases mem_timeoutPeriod h
  · cases mem_enginePeriod h

theorem slotEnd_due {codes : Vector Code 8} :
    .slotEnd codes ∈ (period s).pending ↔ .slotEnd codes ∈ (converterPeriod s).2.2 := by
  refine mem_period.trans ⟨?_, fun h => .inr (.inl h)⟩
  rintro (h | h | h | h | h)
  · cases mem_sweepPeriod h
  · exact h
  · cases mem_timerPeriod h
  · cases mem_timeoutPeriod h
  · cases mem_enginePeriod h

theorem timerExpiry_due : .timerExpiry ∈ (period s).pending ↔ .timerExpiry ∈ (timerPeriod s).2 := by
  refine mem_period.trans ⟨?_, fun h => .inr (.inr (.inl h))⟩
  rintro (h | h | h | h | h)
  · cases mem_sweepPeriod h
  · obtain ⟨codes, h⟩ := mem_converterPeriod h; cases h
  · exact h
  · cases mem_timeoutPeriod h
  · cases mem_enginePeriod h

theorem transferTimeout_due : .transferTimeout ∈ (period s).pending ↔ .transferTimeout ∈ (timeoutPeriod s).2 := by
  refine mem_period.trans ⟨?_, fun h => .inr (.inr (.inr (.inl h)))⟩
  rintro (h | h | h | h | h)
  · cases mem_sweepPeriod h
  · obtain ⟨codes, h⟩ := mem_converterPeriod h; cases h
  · cases mem_timerPeriod h
  · exact h
  · cases mem_enginePeriod h

/-! ## One period (O3, O4) -/

/-- The sheet after a period: the word at the sweep's position is VOID, every other is as before. -/
theorem read_period (hs : SheetSound s) (hsw : s.sweeping = true) (hpos : s.sst.sweepPos + 1 < 32768) (a : Nat) :
    Sheet.read (period s).sst.cells a = if a = s.sst.sweepPos then 0x8000#16 else Sheet.read s.sst.cells a := by
  have hcells : (period s).sst.cells = Sheet.write s.sst.cells s.sst.sweepPos voidWord :=
    congrArg (fun p => p.1.cells) (sweepPeriod_word hsw hpos)
  rw [hcells]
  split
  · next h => rw [h]; exact Sheet.read_write_self hs.1 _ _
  · next h => exact Sheet.read_write_other hs.1 _ h

theorem sweepPos_lt (h : s.sweeping = true) : s.sst.sweepPos < 32768 := by simpa [State.sweeping, Config.sheetWords] using h

/-- Settles O3: RESET held, events due at once, and one period. -/
theorem idleStepFrame : Obligations.IdleStepFrame := by
  intro s hp
  refine ⟨step_idle_held hp, step_idle_due hp, fun hh hd => ⟨_, step_idle_period hp hh hd, ?_, rfl, rfl, rfl, ?_, ?_, ?_, ?_⟩⟩
  · exact keptBut_of fun b => by cases b <;> simp [Block.same, period]
  · exact fun hsw => congrArg Prod.fst (sweepPeriod_off hsw)
  · intro a hs ha
    cases hsw : s.sweeping with
    | false => rw [show (period s).sst = s.sst from congrArg Prod.fst (sweepPeriod_off hsw)]
    | true =>
      have hne : a ≠ s.sst.sweepPos := ha.resolve_left (by simp [hsw])
      rcases Nat.lt_or_eq_of_le (Nat.succ_le_of_lt (sweepPos_lt hsw)) with hpos | hpos
      · rw [read_period hs hsw hpos, if_neg hne]
      · rw [show (period s).sst = s.sst from congrArg Prod.fst (sweepPeriod_last hsw hpos)]
  · exact fun r hr hsw => enginePeriod_run hr hsw (commitWaits_of_dueNow hsw hd)
  · exact enginePeriod_stays

/-- The sweep over a period (R13). -/
theorem period_sweep (hsw : s.sweeping = true) (hs : SheetSound s) :
    (s.sst.sweepPos + 1 < 32768 →
        (period s).sst.sweepPos = s.sst.sweepPos + 1 ∧ Instr.initSweepEnd ∉ (period s).pending ∧
          ∀ a, Sheet.read (period s).sst.cells a =
            if a = s.sst.sweepPos then 0x8000#16 else Sheet.read s.sst.cells a) ∧
      (s.sst.sweepPos + 1 = 32768 → (period s).sst = s.sst ∧ Instr.initSweepEnd ∈ (period s).pending) := by
  refine ⟨fun hpos => ⟨?_, ?_, read_period hs hsw hpos⟩, fun hpos => ⟨?_, ?_⟩⟩
  · exact congrArg (fun p => p.1.sweepPos) (sweepPeriod_word hsw hpos)
  · simp [sweepEnd_due, sweepPeriod_word hsw hpos]
  · exact congrArg Prod.fst (sweepPeriod_last hsw hpos)
  · simp [sweepEnd_due, sweepPeriod_last hsw hpos]

/-- A running timeout over a period (R151, R153). -/
theorem period_timeout {k : Nat} (hk : s.xf.timeout = some k) :
    (1 < k → (period s).xf.timeout = some (k - 1) ∧ Instr.transferTimeout ∉ (period s).pending) ∧
      (k ≤ 1 → Instr.transferTimeout ∈ (period s).pending) := by
  refine ⟨fun h1 => ⟨congrArg Prod.fst (timeoutPeriod_counts hk h1), ?_⟩, fun h1 => ?_⟩
  · simp [transferTimeout_due, timeoutPeriod_counts hk h1]
  · simp [transferTimeout_due, timeoutPeriod_ends hk h1]

/-- The running timer over a period (R21, R22). -/
theorem period_timer (hr : s.timerRunning = true) :
    let due := Instr.timerExpiry ∈ (period s).pending
    let counts := s.acq.cfg.timerMode = .continuous ∨ (s.acq.cfg.timerMode = .gated ∧ s.gateActive = true)
    if s.acq.cfg.timerMode = .external then (period s).stm = s.stm ∧ ¬due
    else if s.stm.prescale + 1 < s.acq.cfg.prescaler.num then
      (period s).stm = { s.stm with prescale := s.stm.prescale + 1 } ∧ ¬due
    else
      (period s).stm.prescale = 0 ∧ (period s).stm.active = s.stm.active ∧ (period s).stm.gate = s.stm.gate ∧
        (period s).stm.scan = s.stm.scan ∧
        (counts → 1 < s.stm.counter → (period s).stm.counter = s.stm.counter - 1 ∧ ¬due) ∧
        (counts → s.stm.counter = 1 → due) ∧ (¬counts → (period s).stm.counter = s.stm.counter ∧ ¬due) := by
  intro due counts
  have hcounts : s.ticksCount = true ↔ counts := ticksCount_iff hr
  have hdue : due ↔ Instr.timerExpiry ∈ (timerPeriod s).2 := timerExpiry_due
  have hstm : (period s).stm = (timerPeriod s).1 := rfl
  rw [hdue, hstm]
  split
  · next hm => simp [timerPeriod_external hm]
  · next hm =>
    split
    · next hpre => simp [timerPeriod_prescales hr hm hpre]
    · next hpre =>
      rw [timerPeriod_ticks hr hm hpre, if_congr hcounts rfl rfl]
      by_cases hc : counts
      · rw [if_pos hc]
        split
        · next h1 => exact ⟨rfl, rfl, rfl, rfl, fun _ h => absurd h (by omega), fun _ _ => by simp, fun h => absurd hc h⟩
        · next h1 => exact ⟨rfl, rfl, rfl, rfl, fun _ _ => by simp, fun _ h => absurd h (by omega), fun h => absurd hc h⟩
      · rw [if_neg hc]
        exact ⟨rfl, rfl, rfl, rfl, fun h => absurd h hc, fun h => absurd h hc, fun _ => by simp⟩

/-- The converter over a period within a slot (R35 to R37). -/
theorem period_converter {c : Converting} {i : Fin 16} (hc : s.cnv.scan = .converting c) (hi : c.buffer.length = i.val) :
    let ends := (s.cnv.slots[i].settle.toNat + 14 * (c.taken + 1)) * s.acq.cfg.divider.num
    let due := ∃ codes, Instr.slotEnd codes ∈ (period s).pending
    (c.clock + 1 < ends → (period s).cnv.scan = .converting { c with clock := c.clock + 1 } ∧ ¬due) ∧
      (ends ≤ c.clock + 1 → c.taken + 1 < s.cnv.slots[i].average.num →
        ¬due ∧ ∃ code : Code, (period s).cnv.scan =
          .converting
            { c with
              clock := c.clock + 1
              taken := c.taken + 1
              sum := c.sum + if s.cnv.slots[i].source = .zero then 0 else code.toNat }) ∧
      (ends ≤ c.clock + 1 → c.taken + 1 = s.cnv.slots[i].average.num → (period s).cnv = s.cnv ∧ due) := by
  intro ends due
  have hdue : due ↔ ∃ codes, Instr.slotEnd codes ∈ (converterPeriod s).2.2 := exists_congr fun codes => slotEnd_due
  have hcnv : (period s).cnv = { s.cnv with scan := (converterPeriod s).1 } := rfl
  rw [hdue, hcnv, converterPeriod_converting hc hi]
  refine ⟨fun h => ?_, fun h hmore => ?_, fun h hlast => ?_⟩
  · rw [if_pos h]
    simp
  · rw [if_neg (Nat.not_lt.mpr h), if_pos hmore]
    exact ⟨by simp, Config.conversionCode s.conversions, rfl⟩
  · rw [if_neg (Nat.not_lt.mpr h), if_neg (by omega)]
    exact ⟨rfl, _, List.mem_singleton.mpr rfl⟩

/-- Settles O4: the parts of a period, each by its own lemma. -/
theorem periodRunsTimerAndConverter : Obligations.PeriodRunsTimerAndConverter := by
  intro s hp hh hd
  refine ⟨_, step_idle_period hp hh hd, period_sweep, fun k hk => period_timeout hk, fun hk => ⟨?_, ?_⟩,
    fun hr _ => period_timer hr, fun c i hc hi _ => period_converter hc hi⟩
  · exact congrArg Prod.fst (timeoutPeriod_stopped hk)
  · simp [transferTimeout_due, timeoutPeriod_stopped hk]

end Sys2Proof.Machine.Steps
end

section
/-! SUPPORT. The bus accesses: the words of TDATA, EVENTS and ENABLES, the window words by their offsets, STATUS and the
result window. -/

namespace Sys2Proof.Machine.Steps

variable {s t u : State}

/-! ## Words that pack fields (spec 11 §11.4) -/

theorem toNat_ofNat16 {n : Nat} (h : n < 65536) : (BitVec.ofNat 16 n).toNat = n := by
  rw [BitVec.toNat_ofNat]
  exact Nat.mod_eq_of_lt h

/-- Bit `i` of a packed list of flags is the `i`-th flag. -/
theorem testBit_bitsToNat : ∀ (bs : List Bool) (i : Nat), (bitsToNat bs).testBit i = bs.getD i false
  | [], i => by simp [bitsToNat]
  | b :: bs, i => by
    have hbit : bitsToNat (b :: bs) = Nat.bit b (bitsToNat bs) := by
      rw [bitsToNat, Nat.bit_val, Nat.add_comm]
    rw [hbit]
    cases i with
    | zero => rw [Nat.testBit_bit_zero]; rfl
    | succ i => rw [Nat.testBit_bit_succ, testBit_bitsToNat bs i]; rfl

theorem bit_eq_toNat (b : Bool) : (if b then 1 else 0) = b.toNat := by cases b <;> rfl

/-! ## The words of RECORD and COUNT (R84, R169) -/

/-- Word `i` of descriptor `n` in the RECORD table. -/
theorem tableWord_record (s : State) (n : Fin 8) {i : Nat} (hi : i < 8) :
    s.tableWord .record (8 * n.val + i) = s.rtb.recs[n].word i := by
  have hdiv : (8 * n.val + i) / 8 = n.val := by omega
  have hmod : (8 * n.val + i) % 8 = i := by omega
  simp only [State.tableWord, hdiv, hmod, n.isLt, dif_pos]
  rfl

/-- The state word of a descriptor: STATE, the three marks and PINS. -/
theorem descriptor_stateWord {d : Descriptor} (hp : d.pins ≤ 8) :
    (d.word 0).toNat =
      d.state.code + 16 * d.truncated.toNat + 32 * d.gap.toNat + 64 * d.early.toNat + 256 * d.pins := by
  have hstate : d.state.code ≤ 2 := by cases d.state <;> decide
  have h1 := d.truncated.toNat_le
  have h2 := d.gap.toNat_le
  have h3 := d.early.toNat_le
  rw [Descriptor.word, toNat_ofNat16] <;> simp only [bitsToNat] <;> omega

/-- The shape word of a descriptor: COLUMNS and CAUSES. -/
theorem descriptor_shapeWord {d : Descriptor} (hc : d.columns ≤ 16) :
    (d.word 5).toNat =
      d.columns + 256 * d.causes.host.toNat + 512 * d.causes.line.toNat + 1024 * d.causes.limit.toNat +
        2048 * d.causes.count.toNat := by
  have h1 := d.causes.host.toNat_le
  have h2 := d.causes.line.toNat_le
  have h3 := d.causes.limit.toNat_le
  have h4 := d.causes.count.toNat_le
  rw [Descriptor.word, toNat_ofNat16] <;> simp only [Sources.code, bitsToNat] <;> omega

/-- TRIGSEQ as two words, low half first. -/
theorem descriptor_sequenceWords (d : Descriptor) :
    (d.word 6).toNat = d.trigSeq.toNat % 65536 ∧ (d.word 7).toNat = d.trigSeq.toNat / 65536 := by
  have hlt := d.trigSeq.isLt
  simp only [Descriptor.word, BitVec.extractLsb'_toNat, Nat.shiftRight_eq_div_pow]
  omega

theorem recordNumber_toNat (n : Option (Fin 8)) :
    (recordNumber n).toNat = match n with | some n => n.val | none => 15 := by
  cases n with
  | none => rfl
  | some n => exact toNat_ofNat16 (by omega)

/-! ## A read of TDATA (R65, R167) -/

theorem readTdata_busData (s : State) : (readTdata s).busData = s.tableWord s.hpi.table s.hpi.index := by
  simp [readTdata]

theorem readTdata_acq (s : State) :
    (readTdata s).acq =
      if s.hpi.table = .count ∧ s.hpi.index = 0 then
        { s.acq with holding := s.acq.committed.extractLsb' 16 16 }
      else s.acq := by
  rw [readTdata, State.advance_acq, State.capture, State.give_hpi, State.give_acq]
  split_ifs <;> rfl

theorem readTdata_keptBut (s : State) : KeptBut [.bus, .acq, .hpi] s (readTdata s) :=
  keptBut_of fun b => by cases b <;> simp [Block.same, readTdata]

/-- Settles O52: the access, and the words that it returns. -/
theorem tdataRead : Obligations.TdataRead := by
  intro s hh hi
  have hacq := readTdata_acq s
  have hbus := readTdata_busData s
  refine ⟨_, HostPortMoves.exec_tdataRead hh, hbus, HostPortMoves.advance_indexMoved (by simp) hi,
    fun ⟨htab, hidx⟩ => ?_, fun h => hacq.trans (if_neg h), readTdata_keptBut s, fun n i htab hidx => ?_, fun htab => ?_⟩
  · rw [if_pos ⟨htab, hidx⟩] at hacq
    rw [htab, hidx] at hbus
    exact ⟨hacq, hbus, congrArg (·.holding) hacq⟩
  · intro d bit
    have hword : i < 8 → (readTdata s).busData = d.word i := fun h8 => by
      rw [hbus, htab, hidx]
      exact tableWord_record s n h8
    have hbit : ∀ b, bit b = b.toNat := bit_eq_toNat
    refine ⟨fun h hp => ?_, fun h hb => ?_, fun h hb => ?_, fun h hb => ?_, fun h hb => ?_, fun h hc => ?_, fun h => ?_,
      fun h => ?_⟩ <;> subst h <;> rw [hword (by decide)]
    · rw [descriptor_stateWord hp, hbit, hbit, hbit]
      cases d.state <;> rfl
    · exact toNat_ofNat16 (by omega)
    · exact toNat_ofNat16 (by omega)
    · exact toNat_ofNat16 (by omega)
    · exact toNat_ofNat16 (by omega)
    · rw [descriptor_shapeWord hc, hbit, hbit, hbit, hbit]
    · exact (descriptor_sequenceWords d).1
    · exact (descriptor_sequenceWords d).2
  · rw [htab] at hbus
    refine ⟨fun h => ?_, fun h hb => ?_, fun h hb => ?_, fun h => ?_, fun h => ?_, fun h hb => ?_, fun h hb => ?_⟩ <;>
      rw [hbus, h]
    · rfl
    · exact toNat_ofNat16 (by omega)
    · exact toNat_ofNat16 (by omega)
    · refine (recordNumber_toNat s.acq.state.openRec).trans ?_
      cases s.acq.state <;> rfl
    · refine (recordNumber_toNat s.rtb.order.head?).trans ?_
      cases s.rtb.order <;> rfl
    · exact toNat_ofNat16 (by omega)
    · exact toNat_ofNat16 (show s.sst.sweepPos / 16 < 65536 by omega)

/-! ## EVENTS and ENABLES (R157 to R161) -/

/-- Bit `i` of EVENTS is the `i`-th flag. -/
theorem getLsbD_eventsWord (s : State) {i : Nat} (hi : i < 16) : s.eventsWord.getLsbD i = s.flags.getD i false := by
  rw [State.eventsWord, BitVec.getLsbD_ofNat, testBit_bitsToNat]
  simp [hi]

theorem resultFlag_iff : s.resultFlag = true ↔ ∃ e rest, s.rq = .posted e :: rest := by
  unfold State.resultFlag
  cases s.rq with
  | nil => simp [headEntry]
  | cons p rest => cases p <;> simp [headEntry]

/-- XFER_READY is its condition (R147). -/
theorem xferReady_iff : s.xferReady = true ↔ XferCondition s := by
  have hrunning : ∀ r, s.ble.running = some r ↔ (s.ble = .run r ∨ s.ble = .xwait r) := fun r => by
    cases s.ble <;> simp [Engine.running]
  unfold XferCondition State.xferReady
  simp only [← hrunning]
  cases s.ble.running with
  | none => simp
  | some r =>
    obtain ⟨-, -, -, -, -, -, k5, k6⟩ := r.cmd.kind_spec
    simp only [Option.some.injEq, exists_eq_left', ← k5, ← k6]
    cases r.cmd.kind with
    | none => simp
    | some k => cases k <;> simp [Running.capacity, Config.fifoDepth, Staged.total]

/-- The line is asserted while a flag and its enable are both set (R161). -/
theorem irq_iff (hh : s.held = false) :
    s.irq = true ↔ ∃ i < 14, s.eventsWord.getLsbD i = true ∧ s.evu.enables.getLsbD i = true := by
  simp [State.irq, hh, List.any_eq_true]

/-- The fourteen enables read as the low bits written (R161). -/
theorem enables_read (w : Word) : (w.extractLsb' 0 14).setWidth 16 = w &&& 0x3FFF#16 := by
  rw [TableWords.and_lowMask w 0x3FFF#16 14 rfl]
  refine BitVec.eq_of_toNat_eq ?_
  simp only [BitVec.toNat_setWidth, BitVec.extractLsb'_toNat, BitVec.toNat_ofNat, Nat.shiftRight_zero]

/-- Settles O54: the writes, the line, and each flag's bit. -/
theorem eventsAndEnables : Obligations.EventsAndEnables := by
  intro w s hh
  have hflag : ∀ i, i < 16 → s.eventsWord.getLsbD i = s.flags.getD i false := fun i => getLsbD_eventsWord s
  refine ⟨⟨_, State.unlessHeld_of hh, ?_, rfl, fun i h3 h13 => ?_, fun i h3 => ?_⟩,
    ⟨_, State.unlessHeld_of hh, ?_, rfl, rfl, ?_⟩, irq_iff hh, ?_, ?_, ?_, ?_⟩
  · exact keptBut_of fun b => by cases b <;> simp [Block.same]
  · rw [getLsbD_eventsWord _ (by omega), hflag i (by omega)]
    interval_cases i <;> rfl
  · rw [getLsbD_eventsWord _ (by omega), hflag i (by omega)]
    interval_cases i <;> rfl
  · exact keptBut_of fun b => by cases b <;> simp [Block.same, writeEnables]
  · refine Eq.trans ?_ (enables_read w)
    simp [State.readWindow, writeEnables, hh]
  · rw [hflag 0 (by decide)]
    exact resultFlag_iff
  · rw [hflag 1 (by decide)]
    exact decide_eq_true_iff
  · rw [hflag 2 (by decide)]
    exact xferReady_iff
  · exact ⟨hflag 3 (by decide), hflag 4 (by decide), hflag 5 (by decide), hflag 6 (by decide), hflag 7 (by decide),
      hflag 8 (by decide), hflag 9 (by decide), hflag 10 (by decide), hflag 11 (by decide), hflag 12 (by decide),
      hflag 13 (by decide)⟩

end Sys2Proof.Machine.Steps
end

section
/-! SUPPORT. The window words by their offsets: the writes, STATUS, and the result window. -/

namespace Sys2Proof.Machine.Steps

variable {s t u : State}

/-! ## The offsets of the window (spec 11 §11.1) -/

theorem offset_staging {o : BitVec 5} (h1 : 0x08#5 ≤ o) (h2 : o ≤ 0x0F#5) : ∃ i : Fin 8, o = BitVec.ofNat 5 (8 + i) := by
  revert o; decide

theorem offset_result {o : BitVec 5} (h1 : 0x10#5 ≤ o) (h2 : o ≤ 0x19#5) : ∃ i : Fin 10, o = BitVec.ofNat 5 (16 + i) := by
  revert o; decide

theorem offset_unassigned {o : BitVec 5} (h : 0x1A#5 ≤ o) : ∃ i : Fin 6, o = BitVec.ofNat 5 (26 + i) := by
  revert o; decide

theorem windowWrite_staging (i : Fin 8) (w : Word) (s : State) :
    windowWrite (BitVec.ofNat 5 (8 + i)) w s = { s with cq := { s.cq with staging := s.cq.staging.withWord i w } } := by
  fin_cases i <;> rfl

theorem windowWrite_result (i : Fin 10) (w : Word) (s : State) : windowWrite (BitVec.ofNat 5 (16 + i)) w s = s := by
  fin_cases i <;> rfl

theorem windowWrite_unassigned (i : Fin 6) (w : Word) (s : State) :
    windowWrite (BitVec.ofNat 5 (26 + i)) w s = s.setAccess := by
  fin_cases i <;> rfl

theorem exec_windowWrite {o : BitVec 5} {w : Word} (hh : s.held = false) :
    exec (.windowWrite o w) s = .next (windowWrite o w s) := State.unlessHeld_of hh

theorem readWindow_staging (hh : s.held = false) (i : Fin 8) :
    s.readWindow (BitVec.ofNat 5 (8 + i)) = s.cq.staging.word i := by
  rw [State.readWindow, if_neg (by simp [hh])]
  fin_cases i <;> rfl

/-- A staging word written is that word; the others stay (R100). -/
theorem word_withWord (c : Staged) (i j : Fin 8) (w : Word) : (c.withWord i w).word j = if j = i then w else c.word j := by
  fin_cases i <;> fin_cases j <;> rfl

/-! ## Writes of the window (R100, R164, R170) -/

theorem decodeTableWord_request (w : Word) : decodeTableWord 16 w.toNat = some (requestOf w) := by
  rw [decodeTableWord, if_pos rfl, BitVec.ofNat_toNat, BitVec.setWidth_eq]

/-- The request that each code of R170 names. -/
theorem requestOf_code {w : Word} {p : Nat × Instr}
    (hp : p ∈ [(1, Instr.srst), (2, .arm), (3, .stop), (4, .trig), (5, .submit), (6, .abort), (7, .flush), (8, .pop),
      (9, .rls (w.extractLsb' 4 12))]) (h : field w 0 4 = p.1) : requestOf w = p.2 := by
  have hcode : (w.extractLsb' 0 4).toNat = p.1 := h
  simp only [List.mem_cons, List.not_mem_nil, or_false] at hp
  rcases hp with rfl | rfl | rfl | rfl | rfl | rfl | rfl | rfl | rfl <;> rw [requestOf, hcode] <;> rfl

/-- Every other code names none. -/
theorem requestOf_noCode {w : Word} (h : field w 0 4 = 0 ∨ 10 ≤ field w 0 4) :
    requestOf w = .badCodeRequest (w.extractLsb' 0 4) := by
  have hcode : (w.extractLsb' 0 4).toNat = 0 ∨ 10 ≤ (w.extractLsb' 0 4).toNat := h
  unfold requestOf
  split
  case h_10 => rfl
  all_goals omega

/-- Settles O55: each window word by its offset, and REQ by its code. -/
theorem windowWrite : Obligations.WindowWrite := by
  intro offset w s hh
  have hexec : exec (.windowWrite offset w) s = .next (Machine.windowWrite offset w s) := exec_windowWrite hh
  obtain ⟨hreq, hevents, henables, htptr, htdata, hxdata⟩ := exec_windowWrite_row w s
  refine ⟨fun h1 h2 => ?_, fun h => ?_, fun h => ?_, fun p hp hcode => ?_, fun hcode => ?_, fun p hp => ?_⟩
  · obtain ⟨i, rfl⟩ := offset_staging h1 h2
    rw [windowWrite_staging] at hexec
    have hread : ∀ j : Fin 8,
        ({ s with cq := { s.cq with staging := s.cq.staging.withWord i w } } : State).readWindow
          (BitVec.ofNat 5 (8 + j)) = if j = i then w else s.cq.staging.word j := fun j =>
      (readWindow_staging (s := { s with cq := { s.cq with staging := s.cq.staging.withWord i w } }) hh j).trans
        (word_withWord s.cq.staging i j w)
    refine ⟨_, hexec, (hread i).trans (if_pos rfl), fun o ho1 ho2 hne => ?_, rfl, rfl,
      keptBut_of fun b => by cases b <;> simp [Block.same]⟩
    obtain ⟨j, rfl⟩ := offset_staging ho1 ho2
    have hji : j ≠ i := fun hji => hne (by rw [hji])
    exact ((hread j).trans (if_neg hji)).trans (readWindow_staging hh j).symm
  · rcases h with rfl | ⟨h1, h2⟩
    · exact hexec
    · obtain ⟨i, rfl⟩ := offset_result h1 h2
      rwa [windowWrite_result] at hexec
  · have haccess : exec (.windowWrite offset w) s = .next s.setAccess := by
      rcases h with rfl | h1
      · exact hexec
      · obtain ⟨i, rfl⟩ := offset_unassigned h1
        rwa [windowWrite_unassigned] at hexec
    exact ⟨_, haccess, rfl, keptBut_of fun b => by cases b <;> simp [Block.same]⟩
  · rw [hreq, decodeTableWord_request, requestOf_code hp hcode]
    exact ⟨rfl, rfl⟩
  · rw [hreq, decodeTableWord_request, requestOf_noCode hcode]
    exact ⟨rfl, rfl⟩
  · simp only [List.mem_cons, List.not_mem_nil, or_false] at hp
    rcases hp with rfl | rfl | rfl | rfl | rfl
    · exact hevents
    · exact henables
    · exact htptr
    · exact htdata
    · exact hxdata

/-! ## STATUS (R165) -/

/-- Six fields packed as STATUS packs them. -/
theorem field_packed {a b c d e f : Nat} (ha : a < 8) (hb : b < 4) (hc : c < 2) (hd : d < 8) (he : e < 8) (hf : f < 16) :
    let w := BitVec.ofNat 16 (a + 8 * b + 32 * c + 64 * d + 512 * e + 4096 * f)
    field w 0 3 = a ∧ field w 3 2 = b ∧ (w.getLsbD 5 = true ↔ c = 1) ∧ field w 6 3 = d ∧ field w 9 3 = e ∧
      field w 12 4 = f := by
  intro w
  rw [getLsbD_ofNat16 _ _ (by decide), decide_eq_true_iff]
  refine ⟨?_, ?_, ?_, ?_, ?_, ?_⟩
  case refine_3 => omega
  all_goals
    refine (field_ofNat16 _ _ _ (by decide)).trans ?_
    omega

/-- The record field of STATUS. -/
def openNumber (s : State) : Nat :=
  match s.acq.state.openRec with
  | some n => n.val
  | none => 0

/-- The fields of STATUS. -/
theorem statusWord_fields (hq : s.cq.queue.length ≤ 7) (hr : postedCount s.rq ≤ 8) :
    field s.statusWord 0 3 = s.acq.state.code ∧ field s.statusWord 3 2 = (if s.sweeping then 3 else s.ble.code) ∧
      (s.statusWord.getLsbD 5 = true ↔ s.xferReady.toNat = 1) ∧ field s.statusWord 6 3 = openNumber s ∧
      field s.statusWord 9 3 = s.cq.queue.length ∧ field s.statusWord 12 4 = postedCount s.rq := by
  have hacq : s.acq.state.code < 8 := by cases s.acq.state <;> simp [AcqState.code]
  have hble : (if s.sweeping then 3 else s.ble.code) < 4 := by
    split
    · decide
    · cases s.ble <;> simp [Engine.code]
  have hopen : openNumber s < 8 := by
    unfold openNumber
    split <;> omega
  have hword : s.statusWord =
      BitVec.ofNat 16
        (s.acq.state.code + 8 * (if s.sweeping then 3 else s.ble.code) + 32 * s.xferReady.toNat + 64 * openNumber s +
          512 * s.cq.queue.length + 4096 * postedCount s.rq) := by
    rw [State.statusWord, Nat.mod_eq_of_lt (by omega)]
    rfl
  rw [hword]
  exact field_packed hacq hble s.xferReady.toNat_lt hopen (by omega) (by omega)

/-! ## The result window (R112, R113) -/

theorem readWindow_posted {e : Entry} {rest : List Place} (hh : s.held = false) (hq : s.rq = .posted e :: rest)
    (i : Fin 10) : s.readWindow (BitVec.ofNat 5 (16 + i)) = e.word i := by
  rw [State.readWindow, if_neg (by simp [hh]), hq]
  fin_cases i <;> rfl

/-- Without a posted head the result window reads 0. -/
theorem readWindow_empty (hh : s.held = false) (hq : ∀ e rest, s.rq ≠ .posted e :: rest) (i : Fin 10) :
    s.readWindow (BitVec.ofNat 5 (16 + i)) = 0#16 := by
  have hhead : headEntry s.rq = none := by
    unfold headEntry
    split
    · next e rest h => exact absurd h (hq e rest)
    · rfl
  rw [State.readWindow, if_neg (by simp [hh]), hhead]
  fin_cases i <;> rfl

/-- The word of TAG, KIND and STATUS. -/
theorem entry_head (e : Entry) :
    field (e.word 0) 0 8 = e.tag.toNat ∧ field (e.word 0) 8 4 = e.kind.toNat ∧ field (e.word 0) 12 4 = e.status.code := by
  have htag := e.tag.isLt
  have hkind := e.kind.isLt
  have hstatus : e.status.code < 16 := by cases e.status <;> decide
  have hword : e.word 0 = BitVec.ofNat 16 (e.tag.toNat + 256 * e.kind.toNat + 4096 * e.status.code) := rfl
  rw [hword, field_ofNat16 _ _ _ (by decide), field_ofNat16 _ _ _ (by decide), field_ofNat16 _ _ _ (by decide)]
  omega

/-- An entry with no detail has none of the words from 2 on. -/
theorem entry_none {e : Entry} (hd : e.detail = .none) (i : Fin 8) : e.word (2 + i) = 0#16 := by
  fin_cases i <;> simp [Entry.word, hd]

/-- The words of a match. -/
theorem entry_found {e : Entry} {k row : Nat} {v : Word} (hd : e.detail = .found k row v) :
    e.word 2 = BitVec.ofNat 16 k ∧ e.word 3 = BitVec.ofNat 16 row ∧ e.word 4 = v := by
  simp [Entry.word, hd]

/-- The words of a reduction. -/
theorem entry_reduced {e : Entry} {st : Stats} (hd : e.detail = .reduced st) :
    e.word 6 = BitVec.ofNat 16 st.sum ∧ e.word 7 = BitVec.ofNat 16 (st.sum / 65536) ∧
      e.word 8 = BitVec.ofNat 16 st.vcount := by
  simp [Entry.word, hd]

/-- The extremes of a reduction with no word counted read 0. -/
theorem entry_reduced_zero {e : Entry} {st : Stats} (hd : e.detail = .reduced st) (h0 : st.vcount = 0) (i : Fin 4) :
    e.word (2 + i) = 0#16 := by
  fin_cases i <;> simp [Entry.word, hd, h0]

/-- The extremes of a reduction with a word counted. -/
theorem entry_reduced_extremes {e : Entry} {st : Stats} (hd : e.detail = .reduced st) (h1 : 1 ≤ st.vcount) :
    e.word 2 = BitVec.ofNat 16 st.min ∧ e.word 3 = BitVec.ofNat 16 st.max ∧
      e.word 4 = positionWord st.minRow st.minCol ∧ e.word 5 = positionWord st.maxRow st.maxCol := by
  have h0 : st.vcount ≠ 0 := by omega
  simp [Entry.word, hd, h0]

theorem positionWord_toNat {row col : Nat} (hr : row ≤ 2047) (hc : col ≤ 15) :
    (positionWord row col).toNat = row + 2048 * col := by
  rw [positionWord, Nat.mod_eq_of_lt (by omega), Nat.mod_eq_of_lt (by omega)]
  exact toNat_ofNat16 (by omega)

/-- Settles O56: STATUS, the empty window, and the words of the head entry. -/
theorem statusAndResultWindow : Obligations.StatusAndResultWindow := by
  intro s hh
  refine ⟨fun hq hr => ?_, fun hempty o h1 h2 => ?_, fun e rest hq => ?_⟩
  · obtain ⟨hacq, hble, hxfer, hopen, hqueue, hposted⟩ := statusWord_fields hq hr
    refine ⟨hacq, hble, ?_, fun n hn => ?_, fun hn => ?_, hqueue, hposted⟩
    · rw [hxfer, ← xferReady_iff, Bool.toNat_eq_one]
    · rw [hopen, openNumber, hn]
    · rw [hopen, openNumber, hn]
  · obtain ⟨i, rfl⟩ := offset_result h1 h2
    exact readWindow_empty hh hempty i
  · have hread : ∀ i : Fin 10, s.readWindow (BitVec.ofNat 5 (16 + i)) = e.word i := readWindow_posted hh hq
    have h2 : s.readWindow 0x12#5 = e.word 2 := hread 2
    have h3 : s.readWindow 0x13#5 = e.word 3 := hread 3
    have h4 : s.readWindow 0x14#5 = e.word 4 := hread 4
    have h5 : s.readWindow 0x15#5 = e.word 5 := hread 5
    have h6 : s.readWindow 0x16#5 = e.word 6 := hread 6
    have h7 : s.readWindow 0x17#5 = e.word 7 := hread 7
    have h8 : s.readWindow 0x18#5 = e.word 8 := hread 8
    obtain ⟨htag, hkind, hstatus⟩ := entry_head e
    refine ⟨(congrArg (field · 0 8) (hread 0)).trans htag, (congrArg (field · 8 4) (hread 0)).trans hkind,
      (congrArg (field · 12 4) (hread 0)).trans hstatus, fun hp => ?_, fun hd o ho1 ho2 => ?_, fun k row v hd hk hrow => ?_,
      fun st hd hsum hv => ⟨?_, ?_, fun h0 o ho1 ho2 => ?_, fun hc hmin hmax => ?_, fun hc hrow hcol => ?_,
        fun hc hrow hcol => ?_⟩⟩
    · exact (congrArg BitVec.toNat (hread 1)).trans (toNat_ofNat16 (by omega))
    · obtain ⟨i, rfl⟩ : ∃ i : Fin 8, o = BitVec.ofNat 5 (16 + (2 + i : Nat)) := by revert o; decide
      exact (hread ⟨2 + i, by omega⟩).trans (entry_none hd i)
    · obtain ⟨e2, e3, e4⟩ := entry_found hd
      rw [h2, h3, h4, e2, e3, e4]
      exact ⟨toNat_ofNat16 (by omega), toNat_ofNat16 (by omega), rfl⟩
    · obtain ⟨e6, e7, -⟩ := entry_reduced hd
      rw [h6, h7, e6, e7, BitVec.toNat_ofNat, toNat_ofNat16 (by omega)]
      omega
    · obtain ⟨-, -, e8⟩ := entry_reduced hd
      rw [h8, e8]
      exact toNat_ofNat16 (by omega)
    · obtain ⟨i, rfl⟩ : ∃ i : Fin 4, o = BitVec.ofNat 5 (16 + (2 + i : Nat)) := by revert o; decide
      exact (hread ⟨2 + i, by omega⟩).trans (entry_reduced_zero hd h0 i)
    · obtain ⟨e2, e3, -, -⟩ := entry_reduced_extremes hd hc
      rw [h2, h3, e2, e3]
      exact ⟨toNat_ofNat16 (by omega), toNat_ofNat16 (by omega)⟩
    · obtain ⟨-, -, e4, -⟩ := entry_reduced_extremes hd hc
      rw [h4, e4]
      exact positionWord_toNat hrow hcol
    · obtain ⟨-, -, -, e5⟩ := entry_reduced_extremes hd hc
      rw [h5, e5]
      exact positionWord_toNat hrow hcol

end Sys2Proof.Machine.Steps
end

section
/-! SUPPORT. The requests to CQ, RQ and RTB: SUBMIT, FLUSH, POP and RLS. -/

namespace Sys2Proof.Machine.Steps

variable {s : State}

/-! ## Refusals in order, where a later condition leans on an earlier one -/

/-- A first condition that fails decides. -/
theorem Decides.cons_of_not {p : Prop} {q : Reason} {rest : List (Prop × Reason)} (hp : ¬p) :
    Decides (some q) ((p, q) :: rest) := by
  refine ⟨?_, fun hall => absurd hall.1 hp⟩
  rintro r (⟨-, rfl⟩ | ⟨hy, -⟩)
  · rfl
  · exact absurd hy hp

/-- A first condition that holds leaves the decision to the others. -/
theorem Decides.cons_of {p : Prop} {q : Reason} {o : Option Reason} {rest : List (Prop × Reason)} (hp : p)
    (h : Decides o rest) : Decides o ((p, q) :: rest) := by
  refine ⟨?_, fun hall => h.2 hall.2⟩
  rintro r (⟨hn, -⟩ | ⟨-, hr⟩)
  · exact absurd hp hn
  · exact h.1 r hr

/-! ## SUBMIT (R102 to R107) -/

/-- BAD_PARAM is judged on a command that names its condition, so BAD_KIND comes first. -/
theorem submitRefusal_decides (s : State) : Decides (submitRefusal s) (submitChecks s).tail := by
  have hkind := s.cq.staging.kindOk_iff
  unfold submitRefusal
  by_cases hn : s.cq.staging.named
  · rw [if_neg (by simp [hkind.mpr hn])]
    refine .cons_of hn (.cons ?_ (.cons ?_ (.cons ?_ (.cons ?_ .nil))))
    · simp [← Staged.rectOk_iff]
    · rw [← Staged.recordsOk_iff]; simp
    · rw [← Staged.paramOk_iff _ hn]; simp
    · exact Nat.one_le_iff_ne_zero
  · rw [if_pos (by simp [← Bool.not_eq_true, hkind, hn])]
    exact .cons_of_not hn

/-- A record gains a pin exactly when the staged command references it (R91). -/
theorem submitEffect_get (s : State) (n : Fin 8) :
    (s.cq.staging.references n →
        (submitEffect s).rtb.recs[n] = { s.rtb.recs[n] with pins := s.rtb.recs[n].pins + 1 }) ∧
      (¬s.cq.staging.references n → (submitEffect s).rtb.recs[n] = s.rtb.recs[n]) := by
  have hget : (submitEffect s).rtb.recs[n] = _ := RecordTable.pin_get s.rtb s.cq.staging.refs n
  rw [← Staged.mem_refs, hget]
  constructor <;> intro hn
  · rw [if_pos hn]
  · rw [if_neg hn]; rfl

/-- Settles O25: the refusals by their order, then the queue's new tail and the pins. -/
theorem submitDecided : Obligations.SubmitDecided := by
  intro s hh
  refine ⟨fun r hr => request_refused hh (submitRefusal_decides s) hr, fun hall => ?_⟩
  refine ⟨_, request_accepted hh (submitRefusal_decides s) hall, rfl, rfl, submitEffect_get s, rfl, ?_⟩
  exact keptBut_of fun b => by cases b <;> simp [Block.same, submitEffect]

/-! ## FLUSH (R115) -/

theorem flushRefusal_decides (s : State) : Decides (flushRefusal s) (flushChecks s).tail := by
  refine .cons ?_ .nil
  rw [List.isEmpty_iff]

/-- What the answers to commands at the head of the queue leave: the rest of the queue, one entry each at the tail, one
pin less for each command that references a record. -/
structure Flushed (cmds : List Staged) (s t : State) : Prop where
  queue : t.cq = { s.cq with queue := s.cq.queue.drop cmds.length }
  answers : t.rq = s.rq ++ cmds.map (fun c => .posted ⟨c.tagBits, c.kindBits, .flushed, 0, .none⟩)
  order : t.rtb.order = s.rtb.order
  pins : ∀ n : Fin 8, t.rtb.recs[n] =
    { s.rtb.recs[n] with pins := s.rtb.recs[n].pins - cmds.countP fun c => decide (n ∈ c.refs) }
  frame : KeptBut [.cq, .rq, .rtb] s t

/-- The answers are given one by one, head first. -/
theorem flushed_foldl : ∀ (cmds : List Staged) (s : State), Flushed cmds s (cmds.foldl flushOne s)
  | [], s =>
    { queue := rfl
      answers := (List.append_nil _).symm
      order := rfl
      pins := fun n => rfl
      frame := .refl _ s }
  | c :: rest, s => by
    have ih := flushed_foldl rest (flushOne s c)
    have hpin : ∀ n : Fin 8, (flushOne s c).rtb.recs[n] = _ := RecordTable.unpin_get s.rtb c.refs
    exact {
      queue := by rw [List.foldl_cons, ih.queue]; simp [flushOne]
      answers := by rw [List.foldl_cons, ih.answers]; simp [flushOne, Staged.entry]
      order := ih.order
      pins := fun n => by
        have hcount : (c :: rest).countP (fun c => decide (n ∈ c.refs)) =
            (if n ∈ c.refs then 1 else 0) + rest.countP fun c => decide (n ∈ c.refs) := by
          rw [List.countP_cons, Nat.add_comm]; simp
        rw [List.foldl_cons, ih.pins, hpin, hcount, ← Nat.sub_sub]
      frame := .trans (keptBut_of fun b => by cases b <;> simp [Block.same, flushOne]) ih.frame }

/-- Settles O27: the refusal, then one answer after the other. -/
theorem flushDecided : Obligations.FlushDecided := by
  intro s hh
  refine ⟨fun r hr => request_refused hh (flushRefusal_decides s) hr, fun hall => ?_⟩
  have hflushed : Flushed s.cq.queue s (flushEffect s) := flushed_foldl s.cq.queue s
  refine ⟨_, request_accepted hh (flushRefusal_decides s) hall, ?_, hflushed.answers, hflushed.order, hflushed.pins, ?_, ?_⟩
  · rw [State.outcome_cq, hflushed.queue, List.drop_length]
  · exact congrArg (fun h : HostPort => { h with code := 7#4, reason := .accepted }) (hflushed.frame .hpi (by simp))
  · exact (hflushed.frame.mono (by simp)).trans ((State.outcome_keptBut _ _ _).mono (by simp))

/-! ## POP (R114) -/

theorem headEntry_eq_none : headEntry s.rq = none ↔ ¬∃ e rest, s.rq = .posted e :: rest := by
  rcases s.rq with _ | ⟨_ | _, _⟩ <;> simp [headEntry]

theorem popRefusal_decides (s : State) : Decides (popRefusal s) (popChecks s).tail :=
  .cons (by rw [headEntry_eq_none, not_not]) .nil

/-- Settles O28: the refusal, then the head entry and its ticket. -/
theorem popDecided : Obligations.PopDecided := by
  intro s hh
  refine ⟨fun r hr => request_refused hh (popRefusal_decides s) hr, fun hall => ?_⟩
  obtain ⟨-, ⟨e, rest, hq⟩, -⟩ := id hall
  refine ⟨_, request_accepted hh (popRefusal_decides s) hall, ⟨e, ?_⟩, rfl, ?_, rfl, ?_⟩
  · simp [popEffect, hq]
  · simp [State.ticketFlag, popEffect]
  · exact keptBut_of fun b => by cases b <;> simp [Block.same, popEffect]

/-! ## RLS (R93 to R95, R62) -/

/-- The record that an argument names. -/
theorem recordOf_eq_some {n : BitVec 12} {m : Fin 8} (h : m.val = n.toNat) : recordOf n = some m := by
  rw [recordOf, dif_pos (h ▸ m.isLt)]
  exact congrArg some (Fin.ext h.symm)

theorem recordOf_eq_none {n : BitVec 12} (h : ¬n.toNat < 8) : recordOf n = none := dif_neg h

/-- A condition on the record that an argument names. -/
theorem forall_named {n : BitVec 12} {m : Fin 8} {P : Fin 8 → Prop} (h : m.val = n.toNat) :
    (∀ k : Fin 8, k.val = n.toNat → P k) ↔ P m :=
  ⟨fun hall => hall m h, fun hm _ hk => Fin.ext (hk.trans h.symm) ▸ hm⟩

/-- The reason for the record that an argument names. -/
theorem rlsRefusal_eq {n : BitVec 12} {m : Fin 8} (h : m.val = n.toNat) :
    rlsRefusal n s =
      if s.rtb.recs[m].state = .free then some .notSealed
      else if s.rtb.recs[m].state = .opened then some .isOpen
      else if s.rtb.recs[m].pins ≠ 0 then some .pinned
      else none := by
  rw [rlsRefusal, recordOf_eq_some h]
  dsimp only
  cases s.rtb.recs[m].state <;> simp

theorem rlsRefusal_decides (n : BitVec 12) (s : State) : Decides (rlsRefusal n s) (rlsChecks n s).tail := by
  by_cases hn : n.toNat < 8
  · have hm : (⟨n.toNat, hn⟩ : Fin 8).val = n.toNat := rfl
    rw [rlsRefusal_eq hm]
    refine .cons_of hn (.cons ?_ (.cons ?_ (.cons ?_ .nil)))
    · exact forall_named hm
    · exact forall_named hm
    · exact (forall_named hm).trans not_not.symm
  · rw [rlsRefusal, recordOf_eq_none hn]
    exact .cons_of_not hn

/-- Outside STARVED the descriptor is freed (R94). -/
theorem rlsEffect_frees {n : BitVec 12} {m : Fin 8} (h : m.val = n.toNat) (hst : s.acq.state ≠ .starved) :
    rlsEffect n s = s.freeRec m := by
  rw [rlsEffect, recordOf_eq_some h]
  exact if_neg hst

/-- In STARVED the descriptor is freed and allocated at once, and the timer starts (R95, R62). -/
theorem rlsEffect_resumes {n : BitVec 12} {m : Fin 8} (h : m.val = n.toNat) (hst : s.acq.state = .starved) :
    rlsEffect n s = ((s.freeRec m).allocate m).startTimer := by
  rw [rlsEffect, recordOf_eq_some h]
  exact if_pos hst

/-- The sealing order without one record. -/
theorem freeRec_order (s : State) (m : Fin 8) : (s.freeRec m).rtb.order = s.rtb.order.filter (· ≠ m) :=
  List.filter_congr fun k _ => by rw [bne, beq_eq_decide, decide_not]

/-- Settles O29: the refusals by their order, then the release, and the resume from STARVED. -/
theorem releaseDecided : Obligations.ReleaseDecided := by
  intro n s hh
  refine ⟨fun r hr => request_refused hh (rlsRefusal_decides n s) hr, fun m hm hall => ?_⟩
  have hexec := request_accepted (code := 9#4) (act := rlsEffect n) hh (rlsRefusal_decides n s) hall
  by_cases hst : s.acq.state = .starved
  · rw [rlsEffect_resumes hm hst] at hexec
    have hget : ∀ k : Fin 8, ((s.freeRec m).allocate m).rtb.recs[k] = _ := (s.freeRec m).allocate_get m
    refine ⟨_, hexec, freeRec_order s m, fun k hk => ?_, rfl, fun hne => absurd hst hne,
      fun _ => ⟨?_, rfl, rfl, rfl, keptBut_of fun b => by cases b <;> simp [Block.same]⟩⟩
    · exact (hget k).trans (by rw [if_neg hk, State.freeRec_get, if_neg hk])
    · exact (hget m).trans (if_pos rfl)
  · rw [rlsEffect_frees hm hst] at hexec
    have hget : ∀ k : Fin 8, (s.freeRec m).rtb.recs[k] = _ := s.freeRec_get m
    refine ⟨_, hexec, freeRec_order s m, fun k hk => (hget k).trans (if_neg hk), rfl,
      fun _ => ⟨(hget m).trans (if_pos rfl), keptBut_of fun b => by cases b <;> simp [Block.same]⟩,
      fun hyes => absurd hyes hst⟩

end Sys2Proof.Machine.Steps
end

section
/-! SUPPORT. One element of MOVE, from the access that it presents next. -/

namespace Sys2Proof.Machine.Steps

variable {s t : State} {op : MoveOp} {r : Running} {a b : Word} {k l : Nat}

/-- An element of MOVE that the port serves. -/
theorem exec_move (hb : s.ble = .run r) (hk : r.cmd.kind = some .move) (ho : r.cmd.op = some op) (hp : PortServes s r) :
    exec (moveInstr op) s = moveElement op r s := by
  have hexec : exec (moveInstr op) s = s.onElement (Staged.isMove op) (moveElement op) := by
    cases op <;> rfl
  rw [hexec, State.onElement_served hb (by simp [Staged.isMove, hk, ho]) hp]

/-- The word that an element writes (R127 to R129). -/
theorem combine_combined (op : MoveOp) (a b : Word) : Combined op a b (combine op a b) := by
  refine ⟨fun hop => by rw [hop]; rfl, fun hop => (combine_void op a b hop).1, fun hop => (combine_void op a b hop).2,
    fun hop ha hb => ?_⟩
  have hspec := combine_spec op a b hop ha hb
  cases op <;> exact hspec

/-! ## The words of an element, and its two ends -/

/-- The words that an element works on: as it has read them, or as the store holds them. -/
def ElementWords (s : State) (r : Running) (k l : Nat) (a b : Word) : Prop :=
  (r.reads = [] ∧ a = s.wordAt k ∧ b = s.wordAt l) ∨ (r.reads = [a] ∧ b = s.wordAt l) ∨ ∃ more, r.reads = a :: b :: more

/-- The source read finds a void word that the command skips (R127, R129). -/
def Skipped (r : Running) (a : Word) : Prop := r.reads = [] ∧ isVoid a = true ∧ r.cmd.skipVoid = true

/-- The element is complete: skipped, or the destination word alone is written. -/
def MoveDone (op : MoveOp) (s t : State) (r : Running) (a b : Word) (l : Nat) : Prop :=
  ElementDone s t { r with progress := r.progress + 1, reads := [], busy := false }
      (if r.cmd.w * r.cmd.h ≤ r.progress + 1 then some (.done, .none) else none) ∧
    (Skipped r a → t.sst = s.sst) ∧ (¬Skipped r a → ∃ w, Stored s t l w ∧ Combined op a b w)

/-- A skipped element ends after its source read. -/
theorem moveDone_of_skipped (hpend : .pending ∈ s.rq) (h : Skipped r a) :
    MoveDone op s (s.endElement r.complete (r.complete.doneAnswer .none)) r a b l :=
  ⟨State.endElement_done _ _ hpend (KeptBut.refl [.sst] s), fun _ => endElement_sheet .., fun hn => absurd h hn⟩

/-- The source word of a COPY is written whatever the destination word is (R127). -/
theorem MoveDone.of_copy {b' : Word} (h : MoveDone .copy s t r a b l) : MoveDone .copy s t r a b' l := by
  obtain ⟨hdone, hskip, hwrite⟩ := h
  refine ⟨hdone, hskip, fun hn => ?_⟩
  obtain ⟨w, hw, hcopy, -⟩ := hwrite hn
  exact ⟨w, hw, hcopy, fun hop => absurd rfl hop, fun hop => absurd rfl hop, fun hop => absurd rfl hop⟩

/-! ## The accesses of an element (R126) -/

/-- The source read comes first; a void word that the command skips ends the element. -/
theorem moveElement_source (hr : r.reads = []) (ha : r.cmd.elementAddr r.cmd.source s.acq.cfg s.rtb r.progress = some k) :
    moveElement op r s =
      if isVoid (s.wordAt k) = true ∧ r.cmd.skipVoid = true then
        .next (s.endElement r.complete (r.complete.doneAnswer .none))
      else s.between { r with reads := [s.wordAt k] } (moveRest op (s.wordAt k)) := by
  rw [moveElement, hr]
  dsimp only
  rw [ha]
  simp only [Bool.and_eq_true]

/-- With the source word read, the element goes on with the rest. -/
theorem moveElement_rest (hr : r.reads = [a]) : moveElement op r s = moveRest op a r s := by
  rw [moveElement, hr]

/-- With both words read, the element writes. -/
theorem moveElement_write {more : List Word} (hr : r.reads = a :: b :: more) :
    moveElement op r s = moveWrite op a b r s := by
  rw [moveElement, hr]

section Served

variable (hsheet : SheetSound s) (hpend : .pending ∈ s.rq)
  (hd : r.cmd.elementAddr r.cmd.dest s.acq.cfg s.rtb r.progress = some l)

include hd in
/-- A combining OP reads the destination word before it writes (R128). -/
theorem moveRest_combining (words : List Word) (hop : op ≠ .copy) :
    moveRest op a { r with reads := words } s =
      s.between { r with reads := [a, s.wordAt l] } (moveWrite op a (s.wordAt l)) := by
  rw [moveRest, if_neg hop, hd]

include hsheet hpend hd

/-- The destination write completes the element, whatever it has read before. -/
theorem moveWrite_done (words : List Word) (h : ¬Skipped r a) :
    ∃ t, moveWrite op a b { r with reads := words } s = .next t ∧ MoveDone op s t r a b l := by
  have hexec : moveWrite op a b { r with reads := words } s =
      .next ((s.store l (combine op a b)).endElement r.complete (r.complete.doneAnswer .none)) := by
    rw [moveWrite, hd]
    rfl
  refine ⟨_, hexec, State.endElement_done _ _ hpend (store_keptBut s l _), fun hs => absurd hs h, fun _ => ?_⟩
  refine ⟨_, ?_, combine_combined op a b⟩
  rw [Stored, endElement_sheet]
  exact State.store_stored hsheet _

/-- A COPY writes after its source read (R127). -/
theorem moveRest_copy (words : List Word) (h : ¬Skipped r a) :
    ∃ t, moveRest .copy a { r with reads := words } s = .next t ∧ MoveDone .copy s t r a b l := by
  obtain ⟨t, ht, hdone⟩ := moveWrite_done (op := .copy) (b := a) hsheet hpend hd words h
  exact ⟨t, (if_pos rfl).trans ht, hdone.of_copy⟩

/-- With no row at the port the rest of an element follows its source read at once. -/
theorem moveRest_free (words : List Word) (hfree : PortFree s) (h : ¬Skipped r a) :
    ∃ t, moveRest op a { r with reads := words } s = .next t ∧ MoveDone op s t r a (s.wordAt l) l := by
  by_cases hop : op = .copy
  · subst hop
    exact moveRest_copy hsheet hpend hd words h
  · rw [moveRest_combining hd words hop, State.between_free hfree.2.2]
    exact moveWrite_done hsheet hpend hd _ h

variable (ha : r.cmd.elementAddr r.cmd.source s.acq.cfg s.rtb r.progress = some k)

include ha

/-- A free port serves the whole element. -/
theorem moveElement_free (hw : ElementWords s r k l a b) (hfree : PortFree s) :
    ∃ t, moveElement op r s = .next t ∧ MoveDone op s t r a b l := by
  rcases hw with ⟨hr, rfl, rfl⟩ | ⟨hr, rfl⟩ | ⟨more, hr⟩
  · rw [moveElement_source hr ha]
    split
    · next hskip => exact ⟨_, rfl, moveDone_of_skipped hpend ⟨hr, hskip⟩⟩
    · next hskip =>
      rw [State.between_free hfree.2.2]
      exact moveRest_free hsheet hpend hd _ hfree fun h => hskip h.2
  · rw [moveElement_rest hr]
    exact moveRest_free hsheet hpend hd r.reads hfree (by simp [Skipped, hr])
  · rw [moveElement_write hr]
    exact moveWrite_done hsheet hpend hd r.reads (by simp [Skipped, hr])

/-- With a row at the port the access in progress completes, and what is left of the element waits (R11, R12). -/
theorem moveElement_commit {row : List Word} (hw : ElementWords s r k l a b) (hrow : s.cnv.scan = .presented row) :
    ∃ t, moveElement op r s = .next t ∧
      (Skipped r a → MoveDone op s t r a b l) ∧
      (¬Skipped r a → r.reads = [] → t = { s with ble := .run { r with reads := [a], busy := false } }) ∧
      (r.reads.length = 1 ∧ op ≠ .copy → t = { s with ble := .run { r with reads := [a, b], busy := false } }) ∧
      (r.reads ≠ [] → ¬(r.reads.length = 1 ∧ op ≠ .copy) → MoveDone op s t r a b l) := by
  rcases hw with ⟨hr, rfl, rfl⟩ | ⟨hr, rfl⟩ | ⟨more, hr⟩
  · rw [moveElement_source hr ha]
    split
    · next hskip =>
      exact ⟨_, rfl, fun h => moveDone_of_skipped hpend h, fun hn => absurd ⟨hr, hskip⟩ hn, by simp [hr], by simp [hr]⟩
    · next hskip =>
      exact ⟨_, State.between_waits hrow, fun h => absurd h.2 hskip, fun _ _ => rfl, by simp [hr], by simp [hr]⟩
  · have hns : ¬Skipped r a := by simp [Skipped, hr]
    rw [moveElement_rest hr]
    by_cases hop : op = .copy
    · subst hop
      obtain ⟨t, ht, hdone⟩ := moveRest_copy (b := s.wordAt l) hsheet hpend hd r.reads hns
      exact ⟨t, ht, fun _ => hdone, by simp [hr], by simp, fun _ _ => hdone⟩
    · exact ⟨_, (moveRest_combining hd r.reads hop).trans (State.between_waits hrow), fun h => absurd h hns, by simp [hr],
        fun _ => rfl, fun _ hn => absurd ⟨by simp [hr], hop⟩ hn⟩
  · have hns : ¬Skipped r a := by simp [Skipped, hr]
    obtain ⟨t, ht, hdone⟩ := moveWrite_done (op := op) (b := b) hsheet hpend hd r.reads hns
    exact ⟨t, (moveElement_write hr).trans ht, fun _ => hdone, by simp [hr], by simp [hr], fun _ _ => hdone⟩

end Served

theorem ble_keptBut (s : State) (e : Engine) : KeptBut [.ble] s { s with ble := e } :=
  keptBut_of fun b => by cases b <;> simp [Block.same]

/-- Settles O41: by the words already read, that is by the access in progress. -/
theorem moveElement : Obligations.MoveElement := by
  intro op s r k l hb hk ho hsheet hpend ha hd a b skipped complete waits
  have hw : ElementWords s r k l a b := by
    rcases hr : r.reads with _ | ⟨x, _ | ⟨y, more⟩⟩ <;> simp [ElementWords, a, b, hr]
  refine ⟨fun hfree => ?_, fun row hh hsw hrow hbusy => ?_⟩
  · rw [exec_move hb hk ho (hfree.serves r)]
    exact moveElement_free hsheet hpend hd ha hw hfree
  · obtain ⟨t, ht, hskip, hsource, hdest, hwrite⟩ := moveElement_commit (op := op) hsheet hpend hd ha hw hrow
    refine ⟨t, (exec_move hb hk ho ⟨hh, hsw, .inl hbusy⟩).trans ht, ?_⟩
    split_ifs with h1 h2 h3
    · exact hskip h1
    · rw [hsource h1 h2]
      exact ⟨rfl, ble_keptBut s _⟩
    · rw [hdest h3]
      exact ⟨rfl, ble_keptBut s _⟩
    · exact hwrite h2 h3

end Sys2Proof.Machine.Steps
end
